-- ==== Sys2Proof/Word.lean ====
section
/-! DEFINITION. The word types of the LT1's registers and memories (00 R8, R10) and the plainest
bit arithmetic on them. -/

namespace Sys2Proof

/-- A register of BAR0: 32 bits (R8). -/
abbrev Word := BitVec 32

/-- One byte of memory. -/
abbrev Byte := BitVec 8

end Sys2Proof
end

