-- ==== Sys2Proof/Config.lean ====
section
/-! DEFINITION. What the spec leaves open: opaque values that nothing can evaluate (log entries 1 and 2). -/

namespace Sys2Proof

/-- The n-th free value of a run, where the spec calls a value undefined or states none (R134, R252, R257,
R267). -/
opaque Config.freeValue : Nat → BitVec 64

/-- Free bytes: byte i of the n-th free value's run (R257, R267, R409). -/
opaque Config.freeByte : Nat → Nat → BitVec 8

/-- The hash-based signature of a message by a leaf of a tree (R441, R457, R461: LMS with SHA-256 as RFC 8554; the
algorithm stands in that standard, not in the spec): tree number, leaf, message. -/
opaque Config.lmsSign : Nat → Nat → List (BitVec 8) → List (BitVec 8)

/-- Does a signature verify over a message under a public key, given by its digest for an owner's key and by the empty
list for Palrek's (RFC 8554): key, signature, message. -/
opaque Config.lmsVerify : List (BitVec 8) → List (BitVec 8) → List (BitVec 8) → Bool

/-- The public key of a tree by its number: 0 the root tree, k + 1 the session tree of TRNG draw k (R457, R459). -/
opaque Config.lmsPublic : Nat → List (BitVec 8)

/-- The serial number in the fuses (R455). -/
opaque Config.serial : BitVec 64

/-- Does an identity cache (65,504 bytes) hash up to the fused root public key (R458)? -/
opaque Config.cacheRootOk : List (BitVec 8) → Bool

/-- Is the subtree root computed from ROOT_SEED for a block the cache's node of that block (R458)? -/
opaque Config.cacheNodeOk : List (BitVec 8) → Nat → Bool

/-- Output of the true random number generator (R459): n-th word. -/
opaque Config.trng : Nat → BitVec 32

end Sys2Proof
end

