-- ==== Sys2Proof/Machine/Table.lean ====
section
/-! DEFINITION. Sparse tables: sorted lists of keys and values. Registers, memories, slot elements,
queues of many streams and the like are tables whose unlisted keys hold a default. Beside them the
bit-field and byte-order helpers every block uses. -/

namespace Sys2Proof.Machine

/-- A sparse table: keys strictly rising. -/
abbrev Tbl (α : Type) := List (Nat × α)

/-- The value listed under a key. -/
def Tbl.look {α : Type} : Tbl α → Nat → Option α
  | [], _ => none
  | (k, v) :: t, x => if x = k then some v else Tbl.look t x

/-- List a value under a key, keeping the keys rising. -/
def Tbl.put {α : Type} : Tbl α → Nat → α → Tbl α
  | [], x, v => [(x, v)]
  | (k, w) :: t, x, v =>
    if x < k then (x, v) :: (k, w) :: t
    else if x = k then (x, v) :: t
    else (k, w) :: Tbl.put t x v

/-- Remove every entry of a key. -/
def Tbl.del {α : Type} (t : Tbl α) (x : Nat) : Tbl α := t.filter (fun p => p.1 != x)

/-- Remove every entry whose key satisfies a test. -/
def Tbl.delWhere {α : Type} (t : Tbl α) (f : Nat → Bool) : Tbl α := t.filter (fun p => !f p.1)

/-- The value under a key, with a default. -/
def Tbl.getD {α : Type} (t : Tbl α) (x : Nat) (d : α) : α := (Tbl.look t x).getD d

/-- Keys strictly rising from a bound. -/
def Tbl.risesFrom {α : Type} : Nat → Tbl α → Bool
  | _, [] => true
  | b, (k, _) :: t => decide (b ≤ k) && Tbl.risesFrom (k + 1) t

/-- Store into a table that lists no entry equal to its default. -/
def Tbl.store {α : Type} [DecidableEq α] (d : α) (t : Tbl α) (x : Nat) (v : α) : Tbl α :=
  if v = d then Tbl.del t x else Tbl.put t x v

/-- A set of numbers as a rising list: membership, insertion, removal. -/
def setIns : List Nat → Nat → List Nat
  | [], x => [x]
  | k :: t, x => if x < k then x :: k :: t else if x = k then k :: t else k :: setIns t x

/-- Remove a number from a set. -/
def setDel (l : List Nat) (x : Nat) : List Nat := l.filter (fun k => k != x)

/-- Bits [hi:lo] of a number. -/
def bitsN (w hi lo : Nat) : Nat := (w >>> lo) % 2 ^ (hi + 1 - lo)

/-- Bit n of a number. -/
def bitN (w n : Nat) : Bool := w.testBit n

/-- Bits [hi:lo] of a register. -/
def fld (w : Word) (hi lo : Nat) : Nat := bitsN w.toNat hi lo

/-- Bit n of a register. -/
def flag (w : Word) (n : Nat) : Bool := w.getLsbD n

/-- A Boolean as a bit. -/
def b2n (b : Bool) : Nat := if b then 1 else 0

/-- The mask of bits [hi:lo]. -/
def maskN (hi lo : Nat) : Nat := (2 ^ (hi + 1 - lo) - 1) <<< lo

/-- Bits [hi:lo] of a register replaced by a number (taken modulo the field). -/
def setFld (w : Word) (hi lo : Nat) (v : Nat) : Word :=
  (w &&& ~~~ (BitVec.ofNat 32 (maskN hi lo))) ||| BitVec.ofNat 32 ((v % 2 ^ (hi + 1 - lo)) <<< lo)

/-- A register with one bit set. -/
def setBit (w : Word) (n : Nat) : Word := w ||| BitVec.ofNat 32 (1 <<< n)

/-- A register with one bit cleared. -/
def clrBit (w : Word) (n : Nat) : Word := w &&& ~~~ (BitVec.ofNat 32 (1 <<< n))

/-- A bit written with a Boolean. -/
def putBit (w : Word) (n : Nat) (b : Bool) : Word := if b then setBit w n else clrBit w n

/-- A number read as two's complement of n bits. -/
def signedN (w n : Nat) : Int := if w % 2 ^ n < 2 ^ (n - 1) then (w % 2 ^ n : Nat) else (w % 2 ^ n : Nat) - (2 ^ n : Nat)

/-- An integer as n bits of two's complement. -/
def wrapN (i : Int) (n : Nat) : Nat := (i % (2 ^ n : Nat)).toNat

/-- Little-endian bytes of a number (R10). -/
def bytesLE : Nat → Nat → List Byte
  | 0, _ => []
  | n + 1, w => BitVec.ofNat 8 w :: bytesLE n (w >>> 8)

/-- The number of little-endian bytes (R10). -/
def ofBytesLE : List Byte → Nat
  | [] => 0
  | b :: t => b.toNat + 256 * ofBytesLE t

/-- Round a number up to a multiple. -/
def roundUp (n m : Nat) : Nat := ((n + m - 1) / m) * m

/-- A saturating 32-bit increment. -/
def satAdd (w : Word) (n : Nat) : Word := BitVec.ofNat 32 (min (w.toNat + n) 0xFFFFFFFF)

/-- Replace the item at an index of a list. -/
def setAt {α : Type} : List α → Nat → α → List α
  | [], _, _ => []
  | _ :: t, 0, v => v :: t
  | h :: t, n + 1, v => h :: setAt t n v

/-- n copies of a value, then cut or padded to length n. -/
def padTo {α : Type} (n : Nat) (d : α) (l : List α) : List α := (l ++ List.replicate n d).take n

/-- How many 64-byte blocks n bytes from an address touch. -/
def blocksIn (a n : Nat) : Nat := if n = 0 then 0 else (a % 64 + n + 63) / 64

/-- Cut a list into pieces of n. -/
def chunksOf {α : Type} (n : Nat) (l : List α) : List (List α) :=
  (List.range ((l.length + n - 1) / n)).map (fun i => (l.drop (i * n)).take n)

end Sys2Proof.Machine
end

