-- ==== Sys2Proof/Machine/Num.lean ====
section
/-! DEFINITION. Exact numbers, the number formats and the one rounding of the LT1 (02 R50, R52): to
nearest, ties away from zero. Every value is computed exactly as a dyadic number or as a quotient cut
far below the rounding point, then rounded once. -/

namespace Sys2Proof.Machine

/-- An exact dyadic number m × 2^e. -/
structure Dy where
  m : Int
  e : Int
  deriving DecidableEq, Repr

/-- 0. -/
def Dy.zero : Dy := ⟨0, 0⟩

/-- The integer m × 2^(e - f), for f at most e. -/
def Dy.at (a : Dy) (f : Int) : Int := a.m * (2 : Int) ^ (a.e - f).toNat

/-- Exact sum. -/
def Dy.add (a b : Dy) : Dy := ⟨a.at (min a.e b.e) + b.at (min a.e b.e), min a.e b.e⟩

/-- Exact negation. -/
def Dy.neg (a : Dy) : Dy := ⟨-a.m, a.e⟩

/-- Exact difference. -/
def Dy.sub (a b : Dy) : Dy := a.add b.neg

/-- Exact product. -/
def Dy.mul (a b : Dy) : Dy := ⟨a.m * b.m, a.e + b.e⟩

/-- The sign of the comparison a ? b, as an integer with the sign of a − b. -/
def Dy.cmp (a b : Dy) : Int := (a.sub b).m

/-- a < b. -/
def Dy.lt (a b : Dy) : Bool := decide (a.cmp b < 0)

/-- Number of bits of a natural number. -/
def bitLen (n : Nat) : Nat := if n = 0 then 0 else Nat.log2 n + 1

/-- n / 2^k to the nearest integer, ties away from zero (R52). -/
def rnaShift (n k : Nat) : Nat := if k = 0 then n else (n + 2 ^ (k - 1)) / 2 ^ k

/-- The exponent of the last kept bit when m × 2^e keeps p significant bits, not below qmin. -/
def lastBit (p : Nat) (qmin : Int) (m : Nat) (e : Int) : Int := max (e + bitLen m - p) qmin

/-- m × 2^e rounded to a multiple of 2^q (ties away), as that multiple. -/
def rnaAt (m : Nat) (e q : Int) : Nat :=
  if q ≤ e then m * 2 ^ (e - q).toNat else rnaShift m (q - e).toNat

/-- rna_p of 02: round to p significant bits with no exponent limit. -/
def Dy.rna (p : Nat) (a : Dy) : Dy :=
  if a.m = 0 then Dy.zero
  else if bitLen a.m.natAbs ≤ p then a
  else
    let q := a.e + bitLen a.m.natAbs - p
    ⟨a.m.sign * rnaAt a.m.natAbs a.e q, q⟩

/-- rna of 02: round to an integer, ties away from zero; here a × 2^(-e) to an integer. -/
def Dy.rnaInt (a : Dy) (e : Int) : Int := a.m.sign * (rnaAt a.m.natAbs a.e e : Nat)

/-- floor(a / 2^e). -/
def Dy.floorAt (a : Dy) (e : Int) : Int :=
  if e ≤ a.e then a.at e else a.m / (2 : Int) ^ (e - a.e).toNat

/-- floor(log2 |a|) of a non-zero number. -/
def Dy.ilog2 (a : Dy) : Int := a.e + bitLen a.m.natAbs - 1

/-- Families of encodings: IEEE 754 style with infinities, FP8 E4M3 (one NaN code, no infinity),
FP4 E2M1 (no non-finite code). -/
inductive FmtKind where
  | ieee
  | e4m3
  | fp4
  deriving DecidableEq, Repr

/-- A floating-point format: exponent bits, fraction bits, bias, kind (R50). -/
structure Fmt where
  eb : Nat
  mb : Nat
  bias : Int
  kind : FmtKind
  deriving DecidableEq, Repr

def fp32 : Fmt := ⟨8, 23, 127, .ieee⟩
def bf16 : Fmt := ⟨8, 7, 127, .ieee⟩
def fp16 : Fmt := ⟨5, 10, 15, .ieee⟩
def e5m2 : Fmt := ⟨5, 2, 15, .ieee⟩
def e4m3 : Fmt := ⟨4, 3, 7, .e4m3⟩
def e2m1 : Fmt := ⟨2, 1, 1, .fp4⟩

/-- A decoded floating-point value; a finite value keeps its sign, so that −0 and +0 differ. -/
inductive Fp where
  | nan
  | inf (neg : Bool)
  | fin (neg : Bool) (m : Nat) (e : Int)
  deriving DecidableEq, Repr

/-- Exponent of the smallest subnormal step. -/
def Fmt.qmin (f : Fmt) : Int := 1 - f.bias - f.mb

/-- Width in bits. -/
def Fmt.bits (f : Fmt) : Nat := 1 + f.eb + f.mb

/-- Largest finite magnitude code (R50). -/
def Fmt.maxCode (f : Fmt) : Nat :=
  match f.kind with
  | .ieee => (2 ^ f.eb - 1) * 2 ^ f.mb - 1
  | .e4m3 => 2 ^ (f.eb + f.mb) - 2
  | .fp4 => 2 ^ (f.eb + f.mb) - 1

/-- Decode a code (R50). -/
def Fmt.decode (f : Fmt) (w : Nat) : Fp :=
  let s := bitN w (f.eb + f.mb)
  let c := w % 2 ^ (f.eb + f.mb)
  let ex := c / 2 ^ f.mb
  let fr := c % 2 ^ f.mb
  if c > f.maxCode then
    (match f.kind with
      | .ieee => if fr = 0 then Fp.inf s else Fp.nan
      | _ => Fp.nan)
  else if ex = 0 then Fp.fin s fr f.qmin
  else Fp.fin s (2 ^ f.mb + fr) (f.qmin + ex - 1)

/-- The magnitude code of m × 2^e rounded once to the format; may lie above maxCode (overflow). -/
def Fmt.magCode (f : Fmt) (m : Nat) (e : Int) : Nat :=
  if m = 0 then 0
  else
    let q := lastBit (f.mb + 1) f.qmin m e
    (q - f.qmin).toNat * 2 ^ f.mb + rnaAt m e q

/-- Sign bit in place. -/
def Fmt.signed (f : Fmt) (neg : Bool) (c : Nat) : Nat := b2n neg * 2 ^ (f.eb + f.mb) + c

/-- The exact value of a finite number. -/
def Fp.dy : Fp → Dy
  | .fin s m e => ⟨if s then -(m : Int) else m, e⟩
  | _ => Dy.zero

/-- Is it finite? -/
def Fp.isFin : Fp → Bool
  | .fin _ _ _ => true
  | _ => false

/-- Is it a NaN? -/
def Fp.isNan : Fp → Bool
  | .nan => true
  | _ => false

/-- A finite zero. -/
def Fp.isZero : Fp → Bool
  | .fin _ m _ => m == 0
  | _ => false

/-- A dyadic number with the sign a zero would take. -/
def Fp.ofDy (zneg : Bool) (d : Dy) : Fp :=
  Fp.fin (if d.m = 0 then zneg else decide (d.m < 0)) d.m.natAbs d.e

/-- Encode with IEEE overflow to infinity; NaN as R52 (FP32), 0x7FC0 (BF16). -/
def Fmt.encodeIeee (f : Fmt) : Fp → Nat
  | .nan => (2 ^ f.eb - 1) * 2 ^ f.mb + 2 ^ (f.mb - 1)
  | .inf s => f.signed s ((2 ^ f.eb - 1) * 2 ^ f.mb)
  | .fin s m e => f.signed s (min (f.magCode m e) ((2 ^ f.eb - 1) * 2 ^ f.mb))

/-- R137: convert a value to a target format: a converted zero is +0, a magnitude beyond the largest
finite becomes that largest finite and clips. Returns the code and the CLIP mark. NaN and infinity
codes as the table of R137 gives them. -/
def Fmt.convert (f : Fmt) : Fp → Nat × Bool
  | .nan =>
    (match f.kind with
      | .ieee => if f.mb = 2 then 0x7F else (2 ^ f.eb - 1) * 2 ^ f.mb + 2 ^ (f.mb - 1)
      | .e4m3 => 0x7F
      | .fp4 => 0, false)
  | .inf s =>
    (match f.kind with
      | .ieee => f.signed s ((2 ^ f.eb - 1) * 2 ^ f.mb)
      | .e4m3 => 0x7F
      | .fp4 => 0, false)
  | .fin s m e =>
    let c := f.magCode m e
    if c = 0 then (0, false)
    else if c > f.maxCode then (f.signed s f.maxCode, true)
    else (f.signed s c, false)

/-- The exact sum of two finite or infinite values under IEEE 754 (R52): a zero sum of opposite signs
is +0, of equal signs keeps the sign. -/
def Fp.add (a b : Fp) : Fp :=
  match a, b with
  | .nan, _ => .nan
  | _, .nan => .nan
  | .inf s, .inf t => if s = t then .inf s else .nan
  | .inf s, _ => .inf s
  | _, .inf t => .inf t
  | .fin s _ _, .fin t _ _ => Fp.ofDy (s && t) (a.dy.add b.dy)

/-- Sign inverted. -/
def Fp.negate : Fp → Fp
  | .nan => .nan
  | .inf s => .inf (!s)
  | .fin s m e => .fin (!s) m e

/-- The exact product under IEEE 754. -/
def Fp.mul (a b : Fp) : Fp :=
  match a, b with
  | .nan, _ => .nan
  | _, .nan => .nan
  | .inf s, .inf t => .inf (s != t)
  | .inf s, .fin t m _ => if m = 0 then .nan else .inf (s != t)
  | .fin s m _, .inf t => if m = 0 then .nan else .inf (s != t)
  | .fin s m e, .fin t n g => .fin (s != t) (m * n) (e + g)

/-- a / b cut 64 bits or more below the leading bit, which decides every rounding of a format. -/
def quotCut (m n : Nat) (e g : Int) : Nat × Int :=
  let k := 80 + bitLen n
  (m * 2 ^ k / n, e - g - k)

/-- The quotient under IEEE 754, cut below the rounding point. -/
def Fp.div (a b : Fp) : Fp :=
  match a, b with
  | .nan, _ => .nan
  | _, .nan => .nan
  | .inf _, .inf _ => .nan
  | .inf s, .fin t _ _ => .inf (s != t)
  | .fin s _ _, .inf t => .fin (s != t) 0 0
  | .fin s m e, .fin t n g =>
    if n = 0 then (if m = 0 then .nan else .inf (s != t))
    else .fin (s != t) (quotCut m n e g).1 (quotCut m n e g).2

/-- floor of the square root, bit by bit: the candidate r with k bits still to settle. -/
def isqrtGo (n : Nat) : Nat → Nat → Nat
  | 0, r => r
  | k + 1, r => if (r + 2 ^ k) * (r + 2 ^ k) ≤ n then isqrtGo n k (r + 2 ^ k) else isqrtGo n k r

/-- floor(√n). -/
def isqrt (n : Nat) : Nat := isqrtGo n (bitLen n / 2 + 1) 0

/-- m × 2^e as m' × 2^e' with e' even. -/
def evenExp (m : Nat) (e : Int) : Nat × Int := if e % 2 = 0 then (m, e) else (2 * m, e - 1)

/-- √a, cut below the rounding point; √−0 = −0, a < 0 gives NaN (R157). -/
def Fp.sqrt : Fp → Fp
  | .nan => .nan
  | .inf s => if s then .nan else .inf false
  | .fin s m e =>
    if m = 0 then .fin s 0 0
    else if s then .nan
    else .fin false (isqrt ((evenExp m e).1 * 2 ^ 160)) ((evenExp m e).2 / 2 - 80)

/-- 1/√a, cut below the rounding point; 1/√±0 is the infinity of the zero's sign (IEEE 754). -/
def Fp.rsqrt : Fp → Fp
  | .nan => .nan
  | .inf s => if s then .nan else .fin false 0 0
  | .fin s m e =>
    if m = 0 then .inf s
    else if s then .nan
    else
      let k := 2 * (80 + bitLen (evenExp m e).1)
      .fin false (isqrt (2 ^ k / (evenExp m e).1)) (-((evenExp m e).2 / 2) - (k / 2 : Nat))

/-- a < b for ordered values, −0 < +0 when `zeros` is set. -/
def Fp.less (zeros : Bool) (a b : Fp) : Bool :=
  match a, b with
  | .nan, _ => false
  | _, .nan => false
  | .inf s, .inf t => s && !t
  | .inf s, _ => s
  | _, .inf t => !t
  | .fin s m _, .fin t n _ => if m = 0 ∧ n = 0 then zeros && s && !t else a.dy.lt b.dy

/-- FP32 of a word. -/
def f32 (w : Word) : Fp := fp32.decode w.toNat

/-- FP32 word of a value rounded once (R52). -/
def toF32 (a : Fp) : Word := BitVec.ofNat 32 (fp32.encodeIeee a)

/-- The minimum of R157: −0 < +0; a NaN operand gives 0x7FC0_0000. -/
def Fp.minF (a b : Fp) : Fp := if a.isNan || b.isNan then .nan else if Fp.less true b a then b else a

/-- The maximum of R157. -/
def Fp.maxF (a b : Fp) : Fp := if a.isNan || b.isNan then .nan else if Fp.less true a b then b else a

/-- FP32 addition (R41, R52). -/
def addF32 (a b : Word) : Word := toF32 ((f32 a).add (f32 b))

/-! ## Element arithmetic of the two-word accumulator (R61–R65) -/

/-- Largest finite FP32 of a sign. -/
def maxF32 (neg : Bool) : Word := if neg then 0xFF7FFFFF else 0x7F7FFFFF

/-- The state of an element (R66). -/
inductive ElemState where
  | finite
  | sat
  | nf
  deriving DecidableEq, Repr

/-- One element of a slot: head, tail, state and poison mark (R62, R66, R85). -/
structure Elem where
  head : Word := 0
  tail : Word := 0
  st : ElemState := .finite
  poison : Bool := false
  deriving DecidableEq, Repr

/-- rna_24 of an exact value with FP32 subnormals; a zero is +0 (R63). `none` beyond FP32 range. -/
def rna24 (x : Dy) : Option Word :=
  let c := fp32.magCode x.m.natAbs x.e
  if c = 0 then some 0
  else if c > fp32.maxCode then none
  else some (BitVec.ofNat 32 (fp32.signed (decide (x.m < 0)) c))

/-- An exact sum split into head and tail, or saturated (the FINITE branch of R62, R65). -/
def splitSum (x : Dy) (p : Bool) : Elem :=
  match rna24 x with
  | none => ⟨maxF32 (decide (x.m < 0)), 0, .sat, p⟩
  | some h => ⟨h, (rna24 (x.sub (f32 h).dy)).getD 0, .finite, p⟩

/-- The element entering NF (R66). -/
def Elem.toNf (e : Elem) : Elem := { e with head := 0x7FC00000, tail := 0, st := .nf }

/-- R61: the rescaled group value rna_48(S × c × 2^u). -/
def rescale (s : Int) (c : Dy) (u : Int) : Dy := ((Dy.mk s u).mul c).rna 48

/-- R62: the update of one element at a group boundary. `c` is the combined scale (R122), `bad` the
non-finite input mark of the group. -/
def accUpdate (s : Int) (c : Word) (u : Int) (bad : Bool) (e : Elem) : Elem :=
  if e.st = .nf then e.toNf
  else if bad || !(f32 c).isFin then e.toNf
  else if e.st = .sat then e
  else splitSum (((f32 e.head).dy.add (f32 e.tail).dy).add (rescale s (f32 c).dy u)) e.poison

/-- R105: the update of MINPLUS and MAXPLUS. -/
def minMaxUpdate (isMax : Bool) (s : Int) (c : Word) (u : Int) (bad : Bool) (e : Elem) : Elem :=
  if e.st = .nf then e.toNf
  else if bad || !(f32 c).isFin then e.toNf
  else if e.st = .sat then e
  else
    let r := rescale s (f32 c).dy u
    match rna24 r with
    | none => { e with head := maxF32 (decide (r.m < 0)), tail := 0, st := .sat }
    | some v =>
      let h := if isMax then (f32 e.head).maxF (f32 v) else (f32 e.head).minF (f32 v)
      { e with head := (if h.isZero then 0 else toF32 h), tail := 0 }

/-- R122: the combined scale of the row and column factors; a zero is +0, an overflow the infinity of
the product's sign. -/
def combinedScale (fs : List Fp) : Word :=
  let p := fs.foldl Fp.mul (.fin false 1 0)
  match p with
  | .fin _ m _ => if m = 0 then 0 else
      (let w := toF32 p
       if w = 0x80000000 then 0 else w)
  | _ => toF32 p

/-! ## Checks over bytes -/

/-- One bit of the header CRC-16, polynomial 0x1021 (R281). -/
def crc16Bit (r : Nat) (b : Bool) : Nat :=
  let x := (r * 2) % 65536
  if (bitN r 15) != b then x ^^^ 0x1021 else x

/-- CRC-16 with initial value 0xFFFF over bits [n-1:0], highest bit first (R281; the bit order is
DEDUCED, log entry 115: the polynomial is given unreflected). -/
def crc16 (w n : Nat) : Nat :=
  (List.range n).foldl (fun r i => crc16Bit r (bitN w (n - 1 - i))) 0xFFFF

/-! ## SHA-256 (FIPS 180-4), for digests and measurements (00, R460)

The chaining value is one 256-bit number and the schedule a 512-bit window, first word highest; the constants are computed
from the primes as the standard defines them. -/

/-- The 32 fraction bits of the k-th root of p: the largest x below 2^36 with x^k at most p × 2^(32k), found bit by bit. -/
def rootFraction (k p : Nat) : Word :=
  BitVec.ofNat 32 ((List.range 36).foldl (fun x i => let y := x + 2 ^ (35 - i); if y ^ k ≤ p * 2 ^ (32 * k) then y else x) 0)

/-- The primes below 312: the first 64. -/
def firstPrimes : List Nat := ((List.range 312).drop 2).filter (fun n => ((List.range 18).drop 2).all (fun q => n % q != 0 || n == q))

/-- Word i of a packed number, counted from the low end. -/
def packedWord (x i : Nat) : Word := BitVec.ofNat 32 (x / 2 ^ (32 * i))

/-- Words joined into one number, first word highest. -/
def packWords (l : List Word) : Nat := l.foldl (fun n w => n * 2 ^ 32 + w.toNat) 0

/-- The exclusive or of two rotations to the right and a third term. -/
def mixRot (x : Word) (m n : Nat) (y : Word) : Word := x.rotateRight m ^^^ x.rotateRight n ^^^ y

/-- One of the 64 rounds with its constant: the chaining value and the window before it, and after it. -/
def digestRound (s : Nat × Nat) (k : Word) : Nat × Nat :=
  let v := packedWord s.1
  let w := packedWord s.2
  let up := v 0 + mixRot (v 3) 6 11 ((v 3).rotateRight 25) + (v 1 ^^^ (v 3 &&& (v 2 ^^^ v 1))) + k + w 15
  let down := mixRot (v 7) 2 13 ((v 7).rotateRight 22) + ((v 7 &&& (v 6 ||| v 5)) ||| (v 6 &&& v 5))
  let next := w 15 + mixRot (w 14) 7 18 (w 14 >>> 3) + w 6 + mixRot (w 1) 17 19 (w 1 >>> 10)
  (packWords [up + down, v 7, v 6, v 5, v 4 + up, v 3, v 2, v 1], s.2 * 2 ^ 32 % 2 ^ 512 + next.toNat)

/-- One 64-byte block, given as a number, joins the chaining value. -/
def digestBlock (h blk : Nat) : Nat :=
  let r := ((firstPrimes.map (rootFraction 3)).foldl digestRound (h, blk)).1
  packWords ((List.range 8).reverse.map (fun i => packedWord h i + packedWord r i))

/-- Bytes as a number, first byte highest. -/
def ofBytesBE (l : List Byte) : Nat := l.foldl (fun a b => a * 256 + b.toNat) 0

/-- SHA-256 of a message. -/
def sha256 (msg : List Byte) : List Byte :=
  let n := msg.length
  let padded := msg ++ 0x80 :: List.replicate ((119 - n % 64) % 64) 0 ++ (bytesLE 8 (8 * n)).reverse
  let h0 := packWords ((firstPrimes.take 8).map (rootFraction 2))
  (bytesLE 32 (((chunksOf 64 padded).map ofBytesBE).foldl digestBlock h0)).reverse

end Sys2Proof.Machine
end

