-- ==== Sys2Proof/Machine/CoreState.lean ====
section
/-! DEFINITION. The state of one core that is not a register: instruction streams, vector registers,
generators, queues, transfers, replay logs, operations, slots, drains, table RAM, decisions (files 01 to
07 and 12). All plain data. -/

namespace Sys2Proof.Machine

/-- States of an instruction stream, in the encoding of STRM_STAT (R189, R198). -/
inductive StreamState where
  | idle | running | halted | faulted | deadlocked | stopped
  deriving DecidableEq, Repr

/-- Why a stream's next word waits: the CAUSE of R188 (1–9), or 16 the commit gate (R161), 17 the divide
unit's interval (R172), 18 a load of the activation table (R134); and its ARG. -/
structure WaitOn where
  cause : Nat
  arg : Nat
  deriving DecidableEq, Repr

/-- One instruction stream (R163, R165, R189). -/
structure Stream where
  st : StreamState := .idle
  /-- Index of the next word. -/
  pc : Nat := 0
  /-- C0–C7, 24 bits. -/
  ctr : Tbl Nat := []
  /-- K0–K3 that are true. -/
  cmp : List Nat := []
  /-- First cycle in which the next word may issue (R165). -/
  nextIssue : Nat := 0
  wait : Option WaitOn := none
  /-- HALT has issued (R166). -/
  halting : Bool := false
  /-- ARG of the last EPOCH word issued, 0 for none (R427). -/
  epoch : Nat := 0
  deriving DecidableEq, Repr

/-- One vector register: 64 lanes, and the poisoned lanes (R156, R162). -/
structure VReg where
  lanes : List Word := []
  bad : List Nat := []
  deriving DecidableEq, Repr

/-- A vector write that has not landed (R160). -/
structure VPend where
  reg : Nat
  val : VReg
  /-- Cycle from which it is seen. -/
  due : Nat
  deriving DecidableEq, Repr

/-- One address generator (R168). -/
structure AddrGen where
  base : Nat := 0
  lines : Nat := 1
  len : Nat := 64
  stride : Int := 0
  adv : Int := 0
  cur : Nat := 0
  deriving DecidableEq, Repr

/-- A queue entry (R176): 64 bytes and poison (its group tag follows from the operation that takes it, R125); where it was read from and in which tile of which
transfer (R214, R219), and the cycle from which it may be taken. -/
structure QEntry where
  data : List Byte
  poison : Bool := false
  addr : Nat := 0
  tile : Nat := 0
  due : Nat := 0
  deriving DecidableEq, Repr

/-- What a transfer does. -/
inductive XferKind where
  | load | store | table | bank
  deriving DecidableEq, Repr

/-- A transfer issued and not complete (R168–R170, R175). -/
structure Transfer where
  seq : Nat
  kind : XferKind
  /-- Queue 0–3 LQ, 4–5 SQ; for CSLD 4 × plane + bank. -/
  q : Nat
  /-- Generator number, and its snapshot with the start cursor. -/
  agn : Nat := 0
  ag : AddrGen := {}
  rep : Nat := 1
  /-- 64-byte entries moved. -/
  done : Nat := 0
  /-- Cycle of issue, word that issued. -/
  cyc : Nat := 0
  pc : Nat := 0
  /-- Bounding address range [lo, hi). -/
  lo : Nat := 0
  hi : Nat := 0
  /-- It may continue the last log entry of its engine; its RST; it has entered the log (R215). -/
  cont : Bool := false
  rst : Bool := false
  logged : Bool := false
  /-- A bus error of it has been recorded (R171). -/
  berr : Bool := false
  /-- What a TLOAD's blocks held when it issued, and which of them were poisoned (R134). -/
  buf : List Byte := []
  bad : List Nat := []
  deriving DecidableEq, Repr

/-- A replay log entry (R215) and its held range (R217). -/
structure LogEntry where
  q : Nat
  agn : Nat
  ag : AddrGen
  rep : Nat
  /-- Sequence numbers first and one past the last. -/
  first : Nat
  last : Nat
  lo : Nat
  hi : Nat
  /-- RST of the last transfer that the entry records. -/
  rst : Bool
  deriving DecidableEq, Repr

/-- One element's share of an injected group: exact sum, unit exponent, non-finite mark, poison mark,
combined scale (R58, R61, R122, R220). -/
structure GElem where
  s : Int
  u : Int
  bad : Bool
  pois : Bool
  c : Word
  deriving DecidableEq, Repr

/-- A group the edge has injected and the cells have not added: its number in the operation, its elements
by logical row and column, the RND notice, its injection cycle and edge cycles. -/
structure Group where
  g : Nat
  rows : List (List (Option GElem))
  rnd : Bool
  cyc : Nat
  len : Nat
  deriving DecidableEq, Repr

/-- An accumulator slot of one plane (R62–R68, R87, R113, R115). -/
structure Slot where
  /-- Not EMPTY. -/
  full : Bool := false
  draining : Bool := false
  /-- Elements by logical row and column; a missing one is (+0, +0) FINITE. -/
  rows : List (List Elem) := []
  /-- Sticky flags by pack unit: bit 0 SAT, 1 NF, 2 RND, 3 LONGSUM (R67, R102). -/
  uf : Tbl Nat := []
  cnt : Nat := 0
  shift : Bool := false
  stale : Bool := false
  /-- Rows and available bands of the plane when the slot was opened (R115). -/
  geo : Nat := 0
  bands : List Nat := []
  deriving DecidableEq, Repr

/-- A scale block taken for the next group (R126): entries, poison and TAG. -/
structure ScaleBlock where
  vals : List Nat
  bad : List Nat
  tag : Nat := 0
  deriving DecidableEq, Repr

/-- An operation (R147) issued and not retired. -/
structure Op where
  /-- The matrix slot's 128 bits. -/
  w : Nat
  seq : Nat
  pc : Nat
  cyc : Nat
  /-- It has entered its edge, in this cycle. -/
  t0 : Option Nat := none
  /-- Number among the chain's operations of this core (R96, R97). -/
  cno : Nat := 0
  /-- Next group to inject; groups injected and not added. -/
  inj : Nat := 0
  grps : List Group := []
  added : Nat := 0
  /-- Cycle after the edge's last K-step so far. -/
  edgeEnd : Nat := 0
  /-- 0 original, 1 replay A, 2 replay B. -/
  run : Nat := 0
  rolls : Nat := 0
  /-- It has skewed once (R128). -/
  skewed : Bool := false
  /-- First cycles from which its look-ahead and its buffer's turnaround proceed (R492). -/
  laAt : Option Nat := none
  tbAt : Option Nat := none
  /-- Scale blocks taken for group `inj`. -/
  rowBlk : Option ScaleBlock := none
  colBlk : Option ScaleBlock := none
  /-- Preload rows still to load (R89). -/
  preLeft : Nat := 0
  /-- Transposing-buffer span lines (R91). -/
  span : List QEntry := []
  /-- Per queue: sequence number of its first entry, how many entries of the queue it has taken, and the source
  addresses of those taken since its last rollback (R219, R221). -/
  firstSeq : Tbl Nat := []
  tookN : Tbl Nat := []
  took : Tbl (List Nat) := []
  /-- Entries per queue that the edge holds of a block it waits for, and the first cycle in which it takes more (R211). -/
  stage : Tbl (List QEntry) := []
  stageAt : Nat := 0
  /-- Entry copies by slot key (R82). -/
  entry : Tbl Slot := []
  /-- END mark seen, groups received from the chain. -/
  chainEnd : Bool := false
  deriving DecidableEq, Repr

/-- A group of b-rows on the weight chain (R94–R97, R127). -/
structure ChainGroup where
  cno : Nat
  g : Nat
  /-- Lines of raw b-values, one per K-step. -/
  lines : List (List Nat)
  bad : List Nat
  tag : Nat
  /-- END mark: last group of the operation. -/
  last : Bool
  /-- The column-scale block that goes with it: entries, poison, TAG (R127). -/
  col : Option (List Byte × Bool × Nat)
  /-- Cycle in which its first b-row reaches the core (R94). -/
  due : Nat := 0
  deriving DecidableEq, Repr

/-- The decision record of a core (R336–R338). -/
structure Decision where
  plane : Nat
  slot : Nat
  half : Nat
  lrow : Nat
  count : Nat
  s0 : Int
  c0 : Int
  /-- The run due or under way: 1 replay A, 2 replay B. -/
  run : Nat
  /-- Replay A's verdict was REPEAT (or replay A was skipped, R341). -/
  rep : Bool
  /-- Sequence number of the failing operation. -/
  op : Nat
  /-- Plane (0 F, 1 B) and pack unit on which the original run computed the key. -/
  uplane : Nat
  unit : Nat
  deriving DecidableEq, Repr

/-- One plane's edge (R77, R83, R88, R340, R413); key 2 holds what belongs to the joined plane's leave. -/
structure PlaneEdge where
  /-- First cycle in which the edge may inject again. -/
  next : Nat := 0
  /-- Tokens granted to the plane; its grant is revoked; it is stopped with its clocks gated (R88, R413). -/
  tokens : Nat := 0
  revoked : Bool := false
  paused : Bool := false
  /-- Last cycle in which the edge had an operation (R413). -/
  busyAt : Nat := 0
  /-- A failed boundary that waits for the open decision (R340), with the decision it will open. -/
  held : Option Decision := none
  /-- Checker lane no longer acted on (R339). -/
  laneOff : Bool := false
  deriving DecidableEq, Repr

/-- A drain issued (R153) or running (R141). -/
structure Drain where
  w : Nat
  seq : Nat
  pc : Nat
  cyc : Nat
  /-- Next row to read, and the rows to read. -/
  row : Nat := 0
  rows : Nat := 0
  /-- Bytes of a record that have not filled an entry, and their poison. -/
  buf : List Byte := []
  bufBad : Bool := false
  /-- Row scales by segment index, newest last: code and poison; amax records. -/
  scales : List (List (Nat × Bool)) := []
  amax : List (Word × Bool) := []
  clip : Bool := false
  nf : Bool := false
  poison : Bool := false
  /-- Slot flags read when the drain started. -/
  flags : Nat := 0
  shift : Bool := false
  /-- Entries of the trailer not yet in the store queue; set once the last row is read. -/
  tail : List QEntry := []
  deriving DecidableEq, Repr

/-- A held column scale bank write (R120): plane, bank, first entry, values, poisoned entries, the cycle from
which it may apply, and whether it comes from a CSLD. -/
structure BankWrite where
  plane : Nat
  bank : Nat
  first : Nat
  vals : List Word
  bad : List Nat
  due : Nat
  deriving DecidableEq, Repr

/-- A context command in progress (R191–R195). -/
structure CtxCmd where
  save : Bool
  cmem : Bool
  start : Nat
  /-- The streams have stopped for it; every core it concerns is ready for the transfer (R191, R192, R195). -/
  stopped : Bool := false
  ready : Bool := false
  /-- States of the streams when they stopped for a SAVE. -/
  xst : StreamState := .idle
  ast : StreamState := .idle
  /-- Image identity found in the header of a RESTORE. -/
  image : Nat := 0
  /-- Blocks of core memory that the command has been granted (R207). -/
  moved : Nat := 0
  deriving DecidableEq, Repr

/-- Everything of a core that its registers do not hold. -/
structure Core where
  x : Stream := {}
  a : Stream := {}
  /-- The last word issued made the core reach an epoch (R427). -/
  atEpoch : Bool := false
  flags : Nat := 0
  /-- Flags before cycle `flagCyc`, those set in it, and those consumed by the execute stream in it (R182). -/
  flagPre : Nat := 0
  flagSet : Nat := 0
  flagTaken : Nat := 0
  flagCyc : Nat := 0
  /-- Flags that a retirement sets in a later cycle: flag and cycle (R152). -/
  flagDue : List (Nat × Nat) := []
  vregs : Tbl VReg := []
  vpend : List VPend := []
  /-- First cycle in which the divide unit takes another instruction (R172). -/
  divNext : Nat := 0
  ags : Tbl AddrGen := []
  /-- Generators written by an AGSET since their engine's last transfer (R215): queue × 8 + generator. -/
  agTouched : List Nat := []
  /-- LQ0–LQ3 under 0–3, SQ0–SQ1 under 4–5. -/
  queues : Tbl (List QEntry) := []
  /-- Entries at the front of a load queue that an edge is taking with the group it injects, four in a cycle (R211). -/
  owe : Tbl Nat := []
  pushSeq : Tbl Nat := []
  takeSeq : Tbl Nat := []
  trans : List Transfer := []
  tno : Nat := 0
  logs : List LogEntry := []
  /-- Replay reads still to make (operation's sequence number and address), and replay buffers, by queue
  (R219); in a buffer `tile` holds the operation's sequence number. -/
  replay : Tbl (List (Nat × Nat)) := []
  rbuf : Tbl (List QEntry) := []
  /-- Cycle of the last rollback's replay (R219). -/
  replayAt : Nat := 0
  issue : List Op := []
  flight : List Op := []
  ono : Nat := 0
  edges : Tbl PlaneEdge := []
  /-- Slots by plane × 8 + number. -/
  slots : Tbl Slot := []
  chainIn : List ChainGroup := []
  /-- b-rows taken from the chain input whose credits are under way, and the cycle in which each is back (R95). -/
  chainOwed : List (Nat × Nat) := []
  chainNo : Nat := 0
  /-- Pending pack-unit fences: plane × 16 + unit (R341). -/
  puPend : List Nat := []
  dec : Option Decision := none
  drains : List Drain := []
  drain : Option Drain := none
  /-- First cycle in which the next drain may read row 0 (R141). -/
  drainNext : Nat := 0
  /-- Slots whose last row a drain read in this cycle: DRAINING ends in the next one (R87, R141). -/
  undrain : List Nat := []
  /-- Slots on which an operation retired in this cycle (R141). -/
  retired : List Nat := []
  table : List Byte := []
  tableBad : List Nat := []
  banks : List BankWrite := []
  /-- Poisoned column scale bank entries, plane × 256 + bank × 64 + j (R194). -/
  bankBad : List Nat := []
  badger : Nat := 0
  /-- A progress event of R186 has come about in this cycle. -/
  progress : Bool := false
  ctx : Option CtxCmd := none
  /-- Job the core belongs to (R26, R395). -/
  job : Option Nat := none
  inReset : Bool := false
  /-- Clearing of core memory under way, from this cycle (R206). -/
  clearing : Option Nat := none
  /-- Access slots used in the quantum by READ, WRITE, REMOTE (R208). -/
  used : List Nat := [0, 0, 0]
  /-- Cycle of the last accesses granted by the banks, and the banks granted in it (R200). -/
  bankCyc : Nat := 0
  bankUse : List Nat := []
  /-- By class: one more than the cycle last counted as a wait on its share (R208). -/
  shareCnt : Tbl Nat := []
  /-- By engine: cycle and number of the accesses issued in it (R200). -/
  engUse : Tbl (Nat × Nat) := []
  quantum : Nat := 0
  /-- Next block the scrubber reads, and the cycle of its last read (R205). -/
  scrub : Nat := 0
  scrubAt : Nat := 0
  /-- Store writes with no acknowledgement: transfer, address, cycle (R171). -/
  unacked : List (Nat × Nat × Nat) := []
  deriving DecidableEq, Repr

end Sys2Proof.Machine
end

