-- ==== Sys2Proof/Machine/Regs.lean ====
section
/-! DEFINITION. The register map of BAR0 (17 R486–R488 and the register tables of every chapter): which
page an address lies in, and for each register its reset value and the access type of each field (R12). -/

namespace Sys2Proof.Machine

/-- The kinds of register page of R486. -/
inductive PageKind where
  | glbHdr | glbFp | glbStep | glbStash | pwr | clk | rst | aon | noc | brg | owlMain | owlJobs | sqr
  | truMain | truPeers | fwl | fwlData | hmc | hmcMap | scc | dma | slp | fabMain | fabJobs | fabRings
  | fabColl | fabRank | hif | cmdMain | cmdCal | cmdJobs | cmdSq | msix | cctl | pln | strm | cmem
  deriving DecidableEq, Repr

/-- Base of the per-core pages (R6, R486). -/
def corePages : Nat := 0x1000000

/-- A run of device pages: base, count, kind, first number within the kind, BLK_ID type, BLK_ID number. -/
structure PageRow where
  base : Nat
  count : Nat
  kind : PageKind
  first : Nat
  type : Nat
  blk : Nat
  deriving DecidableEq, Repr

/-- The device pages of R486. -/
def pageRows : List PageRow :=
  [⟨0x0000, 1, .glbHdr, 0, 1, 0⟩, ⟨0x1000, 1, .glbFp, 0, 1, 1⟩, ⟨0x2000, 1, .glbStep, 0, 1, 2⟩,
   ⟨0x3000, 1, .glbStash, 0, 1, 3⟩, ⟨0x4000, 1, .pwr, 0, 2, 0⟩, ⟨0x5000, 1, .clk, 0, 3, 0⟩,
   ⟨0x6000, 1, .rst, 0, 4, 0⟩, ⟨0x7000, 1, .aon, 0, 5, 0⟩, ⟨0x8000, 2, .noc, 0, 6, 0⟩,
   ⟨0xA000, 2, .brg, 0, 7, 0⟩, ⟨0xC000, 1, .owlMain, 0, 8, 0⟩, ⟨0xD000, 1, .owlJobs, 0, 8, 1⟩,
   ⟨0xE000, 1, .sqr, 0, 9, 0⟩, ⟨0xF000, 1, .truMain, 0, 0xA, 0⟩, ⟨0x10000, 1, .truPeers, 0, 0xA, 1⟩,
   ⟨0x11000, 1, .fwl, 0, 0xB, 0⟩, ⟨0x12000, 1, .fwlData, 0, 0, 0⟩] ++
  [⟨0x100000, 16, .hmc, 0, 0x10, 0⟩, ⟨0x110000, 1, .hmcMap, 0, 0x10, 16⟩,
   ⟨0x120000, 32, .scc, 0, 0x11, 0⟩, ⟨0x140000, 8, .dma, 0, 0x12, 0⟩, ⟨0x150000, 24, .slp, 0, 0x13, 0⟩,
   ⟨0x170000, 1, .fabMain, 0, 0x14, 0⟩, ⟨0x171000, 1, .fabJobs, 0, 0x14, 1⟩,
   ⟨0x172000, 1, .fabRings, 0, 0x14, 2⟩, ⟨0x173000, 1, .fabColl, 0, 0x14, 3⟩,
   ⟨0x180000, 16, .fabRank, 0, 0x14, 16⟩, ⟨0x190000, 1, .hif, 0, 0x15, 0⟩,
   ⟨0x1A0000, 1, .cmdMain, 0, 0x16, 0⟩, ⟨0x1A1000, 1, .cmdCal, 0, 0x16, 1⟩,
   ⟨0x1A2000, 1, .cmdJobs, 0, 0x16, 2⟩, ⟨0x1B0000, 18, .cmdSq, 0, 0x16, 16⟩,
   ⟨0x1D0000, 9, .msix, 0, 0, 0⟩]

/-- A page: its kind, its number within the kind, and its BLK_ID. -/
structure Page where
  kind : PageKind
  n : Nat
  id : Nat
  deriving DecidableEq, Repr

/-- Search the device pages. -/
def findPage : List PageRow → Nat → Option Page
  | [], _ => none
  | r :: t, a =>
    if r.base ≤ a ∧ a < r.base + 0x1000 * r.count then
      let n := (a - r.base) / 0x1000
      some ⟨r.kind, r.first + n, 0x10000 * r.type + r.blk + n⟩
    else findPage t a

/-- The page an address of BAR0 lies in; `none` is a reserved address (R487). -/
def pageOf (a : Nat) : Option Page :=
  if corePages ≤ a then
    let c := (a - corePages) / 0x4000
    if c < 312 then
      match (a - corePages) % 0x4000 / 0x1000 with
      | 0 => some ⟨.cctl, c, 0x200000 + c⟩
      | 1 => some ⟨.pln, c, 0x210000 + c⟩
      | 2 => some ⟨.strm, c, 0x220000 + c⟩
      | _ => some ⟨.cmem, c, 0x230000 + c⟩
    else none
  else findPage pageRows a

/-- Registers at equal strides: first offset, count, stride, reset value, and the bits of each access
type. A bit of no mask is read-only or reserved. -/
structure RegRow where
  off : Nat
  n : Nat := 1
  stride : Nat := 4
  reset : Nat := 0
  rw : Nat := 0
  rws : Nat := 0
  rwq : Nat := 0
  w1c : Nat := 0
  wo : Nat := 0
  deriving DecidableEq, Repr

/-- A read-only register. -/
def rRO (off : Nat) (n : Nat := 1) (stride : Nat := 4) (reset : Nat := 0) : RegRow :=
  { off := off, n := n, stride := stride, reset := reset }
/-- Live bits. -/
def rRW (off mask : Nat) (reset : Nat := 0) (n : Nat := 1) (stride : Nat := 4) : RegRow :=
  { off := off, n := n, stride := stride, reset := reset, rw := mask }
/-- Shadowed bits. -/
def rRWS (off mask : Nat) (reset : Nat := 0) (n : Nat := 1) (stride : Nat := 4) : RegRow :=
  { off := off, n := n, stride := stride, reset := reset, rws := mask }
/-- Quiesce-only bits. -/
def rRWQ (off mask : Nat) (reset : Nat := 0) (n : Nat := 1) (stride : Nat := 4) : RegRow :=
  { off := off, n := n, stride := stride, reset := reset, rwq := mask }
/-- Write-only bits. -/
def rWO (off mask : Nat) (n : Nat := 1) (stride : Nat := 4) : RegRow :=
  { off := off, n := n, stride := stride, wo := mask }

/-- All 32 bits. -/
def allBits : Nat := 0xFFFFFFFF

/-- ERR_STAT bits that each page defines. -/
def errBits : PageKind → Nat
  | .glbStep => 0x1F | .pwr => 0x3F | .clk => 0x3 | .rst => 0x3 | .aon => 0x1 | .noc => 0xF | .brg => 0x3
  | .owlMain => 0xF | .sqr => 0xF | .truMain => 0x3F | .fwl => 0x1F | .hmc => 0x3F | .scc => 0xF
  | .dma => 0xF | .slp => 0x3F | .fabMain => 0x3F | .hif => 0x1F | .cmdMain => 0x3F | .cctl => 0xF
  | .pln => 0x1F | .strm => 0x1 | .cmem => 0xF
  | _ => 0

/-- ERR_INJ bits that each page defines. -/
def injBits : PageKind → Nat
  | .cmem => 0x7 | .hmc => 0x7 | .dma => 0x1 | .slp => 0x1
  | _ => 0

/-- INT_EN bits: those of ERR_STAT (R491), and the sources a chapter names otherwise. -/
def intBits : PageKind → Nat
  | .glbFp => 0x1
  | k => errBits k

/-- The common page header (R11). -/
def headerRows (k : PageKind) (id : Nat) : List RegRow :=
  [rRO 0x000 1 4 id, rRO 0x004,
   rRWQ 0x008 (if k = .cctl then 0x7 else 0x5) 1, rRO 0x00C,
   { off := 0x010, w1c := errBits k }, rRW 0x014 (errBits k), rRW 0x018 (injBits k), rRW 0x01C (intBits k),
   rRO 0x020, rWO 0x024 0xFFFF, rRO 0x028]

/-- The registers of each page from offset 0x100 on. -/
def blockRows : PageKind → List RegRow
  | .glbHdr => [rRW 0x100 0x7FF]
  | .glbFp => [rRO 0x100 1 4 1, rRO 0x104, rRO 0x108, { off := 0x10C, w1c := 1 }, rRO 0x110 78, rRO 0x250 144,
      rRO 0x490 6]
  | .glbStep => [rRWS 0x100 0xFFFFFF 0x2625A, rRWS 0x104 allBits, rWO 0x200 1 64 0x30,
      rRWQ 0x204 0xC00F0000 0 64 0x30, rRWQ 0x208 allBits 0x4600 64 0x30, rRWQ 0x20C 0xFFFFFF80 0 64 0x30,
      rRWQ 0x210 0xFFFF 0 64 0x30, rRWQ 0x214 0xFFFFFF 0 64 0x30, rRO 0x218 64 0x30, rRO 0x21C 64 0x30,
      rRO 0x220 64 0x30, rRO 0x224 64 0x30, rRO 0x228 64 0x30, rRO 0x22C 64 0x30]
  | .glbStash => [rRWQ 0x200 0xFFFFF000 0 64 0x20, rRWQ 0x204 0xFFFF 0 64 0x20, rRW 0x208 allBits 0 64 0x20,
      rRWQ 0x20C 0xFFFFFFC0 0 64 0x20, rRWQ 0x210 0x7FFFFFFF 0 64 0x20, rRO 0x214 64 0x20, rRO 0x218 64 0x20,
      rRO 0x21C 64 0x20]
  | .pwr => [rRW 0x100 0xFF 0x8C, rRW 0x104 0xFFFFFF 0x64, rRW 0x108 0xFFFF0007 0x01000004, rRO 0x10C,
      rRW 0x110 0x3FF 0x28, rRW 0x114 0xFFFF 0x3D09, rRW 0x118 0xFFFF 0x7364, rRO 0x11C, rRO 0x120, rRO 0x124,
      rRO 0x128, rRO 0x12C, rRO 0x130, rRO 0x134, rRO 0x138, rRO 0x13C, rRO 0x150 5]
  | .clk => [rRO 0x100, rRO 0x104, rRO 0x108, rRO 0x10C]
  | .rst => [rWO 0x100 0xFFFF0003, rWO 0x104 0x800001FF, rWO 0x108 0x8000003F, rRO 0x10C, rRO 0x110, rRO 0x114,
      rWO 0x118 0x803FFFFF, { off := 0x11C, w1c := 0x40000000 }]
  | .aon => [rRO 0x100, rRO 0x104, rRO 0x108, rRO 0x10C, rRO 0x110, rRW 0x114 allBits, rRW 0x120 allBits 0 4]
  | .noc => [rRWQ 0x100 0xFF 0x20, rRO 0x104, rRO 0x108, rRO 0x10C, rRO 0x110, rRO 0x114,
      rRWS 0x120 0x803F01FF 0 16 8, rRWS 0x124 0x1F1F0F0F 0 16 8]
  | .brg => [rRO 0x100, rRO 0x104, rRO 0x108, rRO 0x10C]
  | .owlMain => [rRWS 0x100 0xC7FF0000 0x80000000, rRWS 0x104 0xFFFFFF 0x00C01060, rRO 0x108, rRO 0x10C, rWO 0x110 7,
      rRO 0x114, rRWQ 0x118 0xFFFFF000, rRWQ 0x11C 0xFFFF, rRWQ 0x120 0x1F 6, rRW 0x124 0xFFFF, rRO 0x128,
      rRWS 0x140 allBits 0 9, rRO 0x180 9]
  | .owlJobs => [rWO 0x100 0x3FFF, rRO 0x200 64 4 0x1FF]
  | .sqr => [rRWQ 0x100 0x8000003F 4, rRWQ 0x104 0xFFFFF000, rRWQ 0x108 0x1FFFFFFF, rRWQ 0x10C 0xFFFFF000,
      rRWQ 0x110 0xFFFF, rRWQ 0x114 0xFFFF0000, rRWQ 0x118 0xFFFF, rRWQ 0x11C 0xFFFFFF, rWO 0x120 0x3F0F,
      rRW 0x124 0x7FFFF, rRO 0x128, rRO 0x12C, rRO 0x130, rRO 0x134, rRO 0x200 64 0x10, rRO 0x204 64 0x10,
      rRWQ 0x208 0xFFFFF000 0 64 0x10, rRWQ 0x20C allBits 0 64 0x10, rRWQ 0x600 allBits 0 256 4]
  | .truMain => [rRO 0x100, rRO 0x104, rRO 0x108, rRO 0x10C, rRO 0x110, rRW 0x114 0xFFFFF000, rRW 0x118 0xFFFF,
      rWO 0x11C 0xFFFF000F, rRO 0x120, rRO 0x124, rRO 0x200 128]
  | .truPeers => [rRO 0x100 24 0x10, rRO 0x104 24 0x10, rRWQ 0x108 allBits 0 24 0x10, rRWQ 0x10C allBits 0 24 0x10]
  | .fwl => [rRW 0x100 0x07FF0000, rRO 0x104, rRO 0x108, rRO 0x10C, rWO 0x110 0x03FF000F, rRO 0x114,
      rRW 0x118 0x7FFFFF, rRW 0x11C 0xFFFFF000, rRW 0x120 0xFFFF, rRO 0x124, rRO 0x128, rRO 0x12C, rRO 0x140 10,
      rRO 0x180 10]
  | .fwlData => []
  | .hmc => [rRO 0x100, rRO 0x104, rRO 0x108, rRO 0x10C, rRO 0x110, rRO 0x114, rRO 0x118, rRO 0x11C,
      rRWS 0x120 0xFFFFFF, rRO 0x124, rWO 0x128 1, rRO 0x12C, rRO 0x130, rRW 0x134 0x8000FFFF 0x8000001E, rRO 0x138]
  | .hmcMap => [rRWS 0x100 0xFFFFFF 0x1312D, rRWS 0x104 0xFFFF 0x61B, rRW 0x108 0xFF 0x10, rRWS 0x180 allBits 0 24]
  | .scc => [rRO 0x100 11]
  | .dma => [{ off := 0x200, n := 8, stride := 0x40, rw := 3, rwq := 0x3FFF0004 }, rRO 0x204 8 0x40,
      rRWQ 0x208 0xFFFFFFC0 0 8 0x40, rRWQ 0x20C allBits 0 8 0x40, rRWQ 0x210 0xFFFF 0 8 0x40,
      rRWQ 0x214 0xFFFF 0 8 0x40, rWO 0x218 allBits 8 0x40, rRW 0x21C 0x800007FF 0 8 0x40,
      rRW 0x220 0xFFFF00FF 1 8 0x40, rRO 0x224 8 0x40, rRO 0x228 8 0x40, rRO 0x22C 8 0x40]
  | .slp => [rRO 0x100, rRWQ 0x104 0xFF03 0x1001, rRO 0x108 9, rRWS 0x130 0xFFFFFF, rRO 0x134, rWO 0x138 1, rRO 0x13C,
      rRO 0x140]
  | .fabMain => [rRWQ 0x100 0xFFFF0000, rRWS 0x104 0xFFFF 0x200, rRWS 0x108 0xFF 8, rRWS 0x10C 0xFFFFFF 0x1312D,
      rRWS 0x110 0xFFFF 0x61B, rRWS 0x114 0xFFFF 0x61B, rRO 0x118 10, rWO 0x140 0x03FFFFFF, rRW 0x144 0xFFFF]
  | .fabJobs => [rRWQ 0x100 0xC1FFFFFF 0 64 0x20, rRWS 0x104 0x3FFF3FFF 0 64 0x20, rRWQ 0x108 0xFFFFF000 0 64 0x20,
      rRWQ 0x10C 0xFFFF 0 64 0x20, rRW 0x110 0x87FFFF1F 0x104 64 0x20, rRW 0x114 0xFFFF 0 64 0x20,
      rRWQ 0x118 0xFFFFF000 0 64 0x20, rRWQ 0x11C 0xFFFF 0 64 0x20]
  | .fabRings => [rRWQ 0x100 0xFFFFFFC0 0 64 0x20, rRWQ 0x104 0xFFFF 0 64 0x20, rRWQ 0x108 0xFFFF 0 64 0x20,
      rRWQ 0x10C 0xFFFF 0 64 0x20, rWO 0x110 allBits 64 0x20, rRW 0x114 0x80FF0000 0 64 0x20, rRO 0x118 64 0x20]
  | .fabColl => [rRWS 0x100 0xC3FF000F 0xF 16 8, rRWS 0x104 0x3F000000 0 16 8]
  | .fabRank => [rRWS 0x100 0xFFFFFF00 0 960]
  | .hif => [rRO 0x100, rRW 0x104 0xC0000000, rRW 0x108 0x1FF, rRO 0x10C 6]
  | .cmdMain => [rRW 0x100 1, rRWQ 0x104 0xC0000000, rRWQ 0x108 0xFC000000, rRWQ 0x10C 0xFFFF, rRWQ 0x110 0xFC000000,
      rRWQ 0x114 0xFFFF, rRO 0x118, rRW 0x11C 0xFFFF 0x61B, rRO 0x120 10, rWO 0x148 0xFFFFF]
  | .cmdCal => [rRW 0x200 0x800FFFFF 0 64 0x20, rRW 0x204 0xFFFFFF 0 64 0x20, rRW 0x208 0xFFFF 0 64 0x20,
      rRW 0x20C allBits 0 64 0x20, rRW 0x210 0xFFFFFF 0 64 0x20, rRO 0x214 64 0x20, rRO 0x218 64 0x20, rRO 0x21C 64 0x20]
  | .cmdJobs => [rRW 0x200 0x80000000 0 64 0x30, rRO 0x204 64 0x30, rRW 0x208 allBits 0 64 0x30,
      rRW 0x20C allBits 0 64 0x30, rRW 0x210 allBits 0 64 0x30, rRW 0x214 allBits 0 64 0x30, rRW 0x218 allBits 0 64 0x30,
      rRW 0x21C allBits 0 64 0x30, rRW 0x220 allBits 0 64 0x30, rRW 0x224 allBits 0 64 0x30, rRW 0x228 allBits 0 64 0x30]
  | .cmdSq => [rRWQ 0x100 0xFFFFF001 0 240 0x10, rRWQ 0x104 allBits 0 240 0x10,
      { off := 0x108, n := 240, stride := 0x10, rw := 0x80000000, rwq := 0x3F1F0000 }, rRO 0x10C 240 0x10]
  | .msix => []
  | .cctl => [rRWS 0x100 3, rRWS 0x104 0x80FFFFFF 0x80010000, rRO 0x108, rRO 0x10C, rWO 0x110 0x13, rRO 0x114,
      rRW 0x118 0xFFFFF000, rRW 0x11C 0xFFFF, rRW 0x120 0xFFFFF000, rRW 0x124 0xFFFF, { off := 0x140, w1c := 0x80000000 },
      rRO 0x144, rRO 0x148, rRO 0x14C, rRO 0x160 9]
  | .pln => [rRO 0x100 1 4 0x00906030, rRO 0x104, rRWQ 0x108 3, rRO 0x10C, rRO 0x110 5, rRWS 0x124 3, rRO 0x130 6,
      rRO 0x180 8, rRO 0x1A0 8, rRWS 0x204 0xFFFFFF 0 7, rRWS 0x224 allBits 0 7, rRWS 0x244 0xFFFF 0 7,
      rRW 0x800 allBits 0x3F800000 256, rRW 0xC00 allBits 0x3F800000 256]
  | .strm => [rWO 0x100 3, rRO 0x104, rRO 0x108, rRO 0x10C, rRWQ 0x110 0xFFFFFFC0, rRWQ 0x114 0xFFFF, rRWQ 0x118 0xFFFFF,
      rRWQ 0x120 0xFFFFFFC0, rRWQ 0x124 0xFFFF, rRWQ 0x128 0xFFFFF, rRO 0x130, rWO 0x134 0xFFFF, rWO 0x138 0xFFFF,
      rRO 0x140, rRO 0x144, rRO 0x148, rRO 0x150 4]
  | .cmem => [rRWS 0x100 0x3F3F3F 0x00101020, rRWS 0x104 0xFFFF 0x4444, rRW 0x108 0x8000FFFF 0x80000100, rRO 0x10C,
      rRO 0x110, rRO 0x114, rRO 0x118, rRO 0x11C, rRO 0x120, rRO 0x124, rRO 0x128, rRO 0x12C, rRO 0x130, rRO 0x134,
      rRO 0x138]

/-- The register row an offset belongs to. -/
def findRow : List RegRow → Nat → Option RegRow
  | [], _ => none
  | r :: t, o => if r.off ≤ o ∧ (o - r.off) % r.stride = 0 ∧ (o - r.off) / r.stride < r.n then some r else findRow t o

/-- The register of an offset of a page. The FWL data window and the MSI-X table have no header. -/
def rowOf (p : Page) (off : Nat) : Option RegRow :=
  if p.kind = .fwlData ∨ p.kind = .msix then none
  else if off < 0x100 then findRow (headerRows p.kind p.id) off
  else findRow (blockRows p.kind) off

/-- The Owl inputs' reset values (12, the Owl inputs table; EN = 1): EN, BASE, CAP, W. -/
def owlInReset (k : Nat) : Nat :=
  [0x80400010, 0x80802000, 0x80600180, 0x80200008, 0x80300010, 0x80400800, 0x80600800, 0xD5800040, 0x80400100].getD k 0

/-- Reset value of a register (R12; every field map gives it). -/
def resetVal (a : Nat) : Word :=
  match pageOf a with
  | none => 0
  | some p =>
    let off := a % 0x1000
    if p.kind = .hmc ∧ off = 0x120 then BitVec.ofNat 32 (4880 * p.n)
    else if p.kind = .slp ∧ off = 0x130 then BitVec.ofNat 32 (3255 * p.n)
    else if p.kind = .owlMain ∧ 0x140 ≤ off ∧ off < 0x164 then BitVec.ofNat 32 (owlInReset ((off - 0x140) / 4))
    else
      match rowOf p off with
      | none => 0
      | some r => BitVec.ofNat 32 r.reset

/-- A value below a floor or above a ceiling is stored as that bound. -/
def clampFld (w : Word) (hi lo mn mx : Nat) : Word := setFld w hi lo (max mn (min mx (fld w hi lo)))

/-- What a written value is stored as, where its chapter says (the clamps of the register tables). -/
def storedAs (k : PageKind) (off : Nat) (w : Word) : Word :=
  match k with
  | .noc => if off = 0x100 then clampFld w 7 0 8 0xFF else w
  | .pwr => if off = 0x100 then clampFld w 7 0 70 160 else if off = 0x108 then clampFld w 2 0 0 4 else w
  | .owlMain => if off = 0x120 then (if 4 ≤ fld w 4 0 ∧ fld w 4 0 ≤ 16 then w else setFld w 4 0 4) else w
  | .hmc => if off = 0x134 then clampFld w 15 0 4 0xFFFF else w
  | .hmcMap => if off = 0x108 then clampFld w 7 0 1 0xFF else w
  | .dma => if 0x200 ≤ off ∧ off % 0x40 = 0x20 then clampFld w 7 0 1 0xFF else w
  | .slp => if off = 0x104 then clampFld w 15 8 1 0xFF else w
  | .fabMain => if off = 0x104 then clampFld w 15 0 8 0xFFFF else if off = 0x108 then clampFld w 7 0 1 0xFF else w
  | .fabJobs => if off % 0x20 = 0x10 then
      (let v := clampFld w 15 8 1 0xFF
       if 4 ≤ fld v 4 0 ∧ fld v 4 0 ≤ 16 then v else setFld v 4 0 4) else w
  | .cmdSq => if off % 0x10 = 8 then (if 4 ≤ fld w 20 16 ∧ fld w 20 16 ≤ 16 then w else setFld w 20 16 4) else w
  | .cctl => if off = 0x104 then clampFld w 23 0 0x1000 0xFFFFFF else w
  | .cmem =>
    if off = 0x104 then clampFld (clampFld (clampFld (clampFld w 3 0 1 8) 7 4 1 8) 11 8 1 8) 15 12 1 8
    else if off = 0x108 then clampFld w 15 0 16 0xFFFF else w
  | _ => w

/-- The reduction registers of the second NOC page are those of the first (R38, R48). -/
def redAlias (a : Nat) : Nat := if 0x9120 ≤ a ∧ a < 0x91A0 then a - 0x1000 else a

/-! Addresses of the registers the meanings name. -/

def aGlb (off : Nat) : Nat := off
def aFp (off : Nat) : Nat := 0x1000 + off
def aStep (off : Nat) : Nat := 0x2000 + off
def aStepJ (j off : Nat) : Nat := 0x2200 + j * 0x30 + off
def aStash (j off : Nat) : Nat := 0x3200 + j * 0x20 + off
def aPwr (off : Nat) : Nat := 0x4000 + off
def aClk (off : Nat) : Nat := 0x5000 + off
def aRst (off : Nat) : Nat := 0x6000 + off
def aAon (off : Nat) : Nat := 0x7000 + off
def aNoc (d off : Nat) : Nat := 0x8000 + 0x1000 * d + off
def aBrg (d off : Nat) : Nat := 0xA000 + 0x1000 * d + off
def aOwl (off : Nat) : Nat := 0xC000 + off
def aOwlJ (off : Nat) : Nat := 0xD000 + off
def aSqr (off : Nat) : Nat := 0xE000 + off
def aTru (off : Nat) : Nat := 0xF000 + off
def aTruP (off : Nat) : Nat := 0x10000 + off
def aFwl (off : Nat) : Nat := 0x11000 + off
def aHmc (k off : Nat) : Nat := 0x100000 + 0x1000 * k + off
def aMap (off : Nat) : Nat := 0x110000 + off
def aScc (k off : Nat) : Nat := 0x120000 + 0x1000 * k + off
def aDma (b off : Nat) : Nat := 0x140000 + 0x1000 * b + off
/-- Register `off` of channel ch = block × 8 + channel. -/
def aDmaC (ch off : Nat) : Nat := 0x140000 + ch / 8 * 0x1000 + 0x200 + ch % 8 * 0x40 + off
def aSlp (p off : Nat) : Nat := 0x150000 + 0x1000 * p + off
def aFab (off : Nat) : Nat := 0x170000 + off
def aFabJ (j off : Nat) : Nat := 0x171100 + j * 0x20 + off
def aFabSq (j off : Nat) : Nat := 0x172100 + j * 0x20 + off
def aFabColl (c off : Nat) : Nat := 0x173100 + 8 * c + off
def aFabRank (e : Nat) : Nat := 0x180000 + e / 960 * 0x1000 + 0x100 + 4 * (e % 960)
def aHif (off : Nat) : Nat := 0x190000 + off
def aCmd (off : Nat) : Nat := 0x1A0000 + off
def aCal (e off : Nat) : Nat := 0x1A1200 + e * 0x20 + off
def aCmdJ (j off : Nat) : Nat := 0x1A2200 + j * 0x30 + off
def aSq (q off : Nat) : Nat := 0x1B0000 + q / 240 * 0x1000 + 0x100 + 16 * (q % 240) + off
def aMsix : Nat := 0x1D0000
def aCctl (c off : Nat) : Nat := corePages + 0x4000 * c + off
def aPln (c off : Nat) : Nat := corePages + 0x4000 * c + 0x1000 + off
def aStrm (c off : Nat) : Nat := corePages + 0x4000 * c + 0x2000 + off
def aCmem (c off : Nat) : Nat := corePages + 0x4000 * c + 0x3000 + off

end Sys2Proof.Machine
end

