-- ==== Sys2Proof/Machine/Dev.lean ====
section
/-! DEFINITION. The state of the device outside its cores: memories, shared cache, stacks, DMA channels,
gates, Owl, Squirrel. `Dev` is the whole machine but its queue of waiting commands. All plain data. -/

namespace Sys2Proof.Machine

/-- A symbol error standing in storage: codeword, symbol, difference from the stored value (R201, R229). -/
structure SymErr where
  cw : Nat
  sym : Nat
  e : Nat
  deriving DecidableEq, Repr

/-- A 128-byte line of a home slice (R237): which 64-byte blocks are valid, poisoned, dirty. -/
structure CLine where
  v0 : Bool := false
  v1 : Bool := false
  p0 : Bool := false
  p1 : Bool := false
  dirty : Bool := false
  d0 : List Byte := []
  d1 : List Byte := []
  deriving DecidableEq, Repr

/-- One HBM stack (R226, R245, R246). -/
structure Stack where
  held : Bool := false
  trained : Bool := false
  selfRefresh : Bool := false
  window : Bool := false
  defers : Nat := 0
  /-- Due tick of the next window, and of the window before deferrals. -/
  due : Nat := 0
  orig : Nat := 0
  /-- Line offset of the scrubber, and the cycle of its last step (R234). -/
  scrub : Nat := 0
  scrubAt : Nat := 0
  temp : Nat := 0
  deriving DecidableEq, Repr

/-- A write that its home slice holds for a first-touch copy (R353): address, bytes, poison, and for a
reduction its op code (R242). -/
structure HeldWrite where
  addr : Nat
  data : List Byte
  poison : Bool
  red : Option Nat := none
  /-- The DMA channel and ring index of the descriptor whose write it is (R258). -/
  own : Option (Nat × Nat) := none
  deriving DecidableEq, Repr

/-- A registered page (R353): TOUCHED, SEND, and the stage pages of X and O. -/
structure SqrPage where
  touched : Bool := false
  send : Bool := false
  x : Option Nat := none
  o : Option Nat := none
  deriving DecidableEq, Repr

/-- Snapshot state of a job (R352), as SQR_JOB_n_STAT encodes it. -/
inductive SnapState where
  | idle | running | committed | merging
  deriving DecidableEq, Repr

/-- A job's snapshot record. -/
structure SqrJob where
  st : SnapState := .idle
  lost : Bool := false
  /-- LOST was set anew after the commit of the base generation that answers the LOST before (R356). -/
  again : Bool := false
  done : Bool := false
  base : Bool := false
  startPend : Bool := false
  /-- A generation starts at the next ARM, and whether as a base generation. -/
  next : Option Bool := none
  /-- Running generation and committed generation C. -/
  gen : Nat := 0
  com : Nat := 0
  /-- Sends of the running generation not yet acknowledged. -/
  unacked : Nat := 0
  /-- A send of the running generation ended with a status other than OK (R360). -/
  stuck : Bool := false
  /-- A rollback or rebuild phase in progress: 2 ROLLBACK … 6 REPARITY; its T and lost member. -/
  phase : Nat := 0
  arg : Nat := 0
  deriving DecidableEq, Repr

/-- A send that Squirrel makes (R351, R353, R358): job, destination rank and address (in the reduction window for an XOR
send), the data and its poison, or for a GET the landing address and length; whether it belongs to the running
generation; bytes cut so far and its send number. -/
structure HwSend where
  job : Nat
  rank : Nat
  addr : Nat
  op : Option Nat := none
  data : List Byte
  poison : Bool := false
  gen : Bool := false
  get : Option (Nat × Nat) := none
  off : Nat := 0
  send : Option Nat := none
  deriving DecidableEq, Repr

/-- A DMA channel's state, as DMA_CH_STAT encodes it (R266). -/
inductive ChanState where
  | idle | active | wait | error | disabled
  deriving DecidableEq, Repr

/-- A descriptor a channel has started (R254–R263). -/
structure DmaDesc where
  idx : Nat
  bytes : List Byte
  moved : Nat := 0
  poison : Bool := false
  status : Nat := 0
  reason : Nat := 0
  /-- No byte more moves: every write complete, or the descriptor has failed. -/
  ended : Bool := false
  crc : Nat := 0xFFFFFFFF
  /-- A core-memory write waits for its acknowledgement since this cycle (R260). -/
  unacked : Option Nat := none
  /-- Blocks of the destination that poisoned data touches where it lies in the source (R257, R261). -/
  bads : List Nat := []
  /-- Behind a descriptor that R262 ended: it moves nothing more and is not written back. -/
  dropped : Bool := false
  /-- Its write-back has been made and is not yet complete (R259). -/
  wb : Bool := false
  deriving DecidableEq, Repr

/-- A DMA channel. -/
structure DmaChan where
  st : ChanState := .idle
  dbPend : Bool := false
  /-- Ring index of the next descriptor to fetch. -/
  fetch : Nat := 0
  descs : List DmaDesc := []
  pend : Nat := 0
  /-- Tick of the oldest pending completion (R265). -/
  oldest : Nat := 0
  /-- CRC of the last written-back descriptor that had CRC_EN (R263). -/
  crc : Nat := 0
  /-- Cycle of the last ring read that found OWN = 0 (R252). -/
  polled : Nat := 0
  errCode : Nat := 0
  errIdx : Nat := 0
  /-- Cycle in which the code was recorded (R15). -/
  errCyc : Nat := 0
  deriving DecidableEq, Repr

/-- The Owl (R347–R349). -/
structure Owl where
  acc : Tbl Nat := []
  /-- Events of the interval by input. -/
  ev : Tbl Nat := []
  score : Nat := 0
  peak : Nat := 0
  loArmed : Bool := true
  hiArmed : Bool := true
  /-- Jobs for which FORCE_SNAP raises SNAP_REQ at their next decision. -/
  force : List Nat := []
  spare : Bool := false
  /-- Tick at which the last interval ended. -/
  ended : Nat := 0
  /-- Records written to the event ring since its restart, and records read as OWL_LOG_HEAD tells (both
  counted without wrapping). -/
  idx : Nat := 0
  ahead : Nat := 0
  /-- Hottest die sensor, °C. -/
  die : Nat := 0
  deriving DecidableEq, Repr

/-- A saved context (R193): what bytes 64 and above of an image stand for. -/
structure Image where
  core : Core
  regs : Tbl Word
  phys : Nat
  deriving DecidableEq, Repr

/-- A reduce packet (R39): chunk index, 32 values, poison. -/
structure RedPkt where
  chunk : Nat
  vals : List Word
  poison : Bool
  deriving DecidableEq, Repr

/-- State of a submission queue, as CMD_SQ_q_CFG encodes it (R369–R371). -/
inductive SqState where
  | idle | active | stalled | error
  deriving DecidableEq, Repr

/-- A submission queue. -/
structure SubQ where
  head : Nat := 0
  tail : Nat := 0
  st : SqState := .idle
  err : Nat := 0
  /-- The cycle in which it entered ERROR (R15). -/
  errCyc : Nat := 0
  deriving DecidableEq, Repr

/-- State of a command, numbered as R375 numbers it. -/
inductive CmdState where
  | queued | running | suspending | suspended | cancelling | done | cancelled | failed
  deriving DecidableEq, Repr

/-- One listed core of a launch descriptor (R390). -/
structure LaunchCore where
  phys : Nat
  lcore : Nat
  xBase : Nat
  aBase : Nat
  xLen : Nat
  aLen : Nat
  cmem : Bool
  ctx : Nat
  deriving DecidableEq, Repr

/-- A command stream: its binding, its last accepted command and that command's state, as its journal
entry holds them (R377–R383). -/
structure CmdStream where
  job : Option Nat := none
  last : Nat := 0
  /-- The 512 bits of the last accepted command. -/
  cmd : Nat := 0
  st : CmdState := .done
  status : Nat := 0
  released : Bool := true
  image : Bool := false
  pendResume : Bool := false
  pendCancel : Bool := false
  restarts : Nat := 0
  startT : Nat := 0
  endT : Nat := 0
  phys : Nat := 0x1FF
  /-- Launch descriptor as read when the RUN last became QUEUED (R390). -/
  cores : List LaunchCore := []
  /-- STATUS that the descriptor's reading calls for, 0 for none (R390). -/
  launchErr : Nat := 0
  /-- WAIT and control commands: state and STATUS of the target when it became terminal, or 0xF and 0 when its stream
  had accepted a later sequence at acceptance (R375). -/
  out : Option (Nat × Nat) := none
  /-- CAL: its slot has come (R397), and the tick of that slot. -/
  slotT : Option Nat := none
  deriving DecidableEq, Repr

/-- A held command (R378, R381): stream, sequence, bits, job of its queue, order of fetching, ticks left of
its gap time. -/
structure HeldCmd where
  stream : Nat
  seq : Nat
  cmd : Nat
  job : Nat
  left : Nat
  deriving DecidableEq, Repr

/-- A calendar entry's progress (R397, R398): next slot, and the released command whose deadline runs
(its sequence and slot tick). -/
structure CalRec where
  k : Nat := 0
  open_ : Option (Nat × Nat) := none
  deriving DecidableEq, Repr

/-- The command block's state that no register holds. -/
structure CmdBlock where
  streams : Tbl CmdStream := []
  hold : List HeldCmd := []
  sqs : Tbl SubQ := []
  cal : Tbl CalRec := []
  /-- Streams in the on-die stream cache, most recent first (R384). -/
  cached : List Nat := []
  scanning : Bool := false
  paused : Bool := false
  /-- The scan due first reads the journal (R386). -/
  recovering : Bool := false
  zeroing : Bool := false
  copying : Bool := false
  /-- Failed copies of which a base register has been written since (R387). -/
  rebased : List Nat := []
  /-- PCIe: link up, Bus Master Enable, Flit mode, lanes, rate (R361, R366, R399). -/
  up : Bool := false
  bme : Bool := false
  /-- log2 of the BAR2 size (R363). -/
  bar2 : Nat := 36
  /-- AER uncorrectable error status and mask, numbered as PCIe numbers them, and error messages sent (R361, R365). -/
  aer : Nat := 0
  aerMask : Nat := 0
  aerSent : Nat := 0
  deriving DecidableEq, Repr

/-- A request for power leave (R413, R414): core, plane (0 F, 1 B, 2 J), tokens asked for, the tick of the
request, whether it is a revoked grant and that grant's number; it has timed out, and is to be granted alone (R416). -/
structure LeaveReq where
  core : Nat
  plane : Nat
  tokens : Nat
  tick : Nat
  revoked : Bool := false
  no : Nat := 0
  tmo : Bool := false
  alone : Bool := false
  deriving DecidableEq, Repr

/-- A grant of power leave (R413–R416), its number, whether it was made alone, and whether it is revoked and its clocks
not yet gated. -/
structure LeaveGrant where
  core : Nat
  plane : Nat
  tokens : Nat
  no : Nat := 0
  alone : Bool := false
  leaving : Bool := false
  deriving DecidableEq, Repr

/-- A core fence asked for and not yet effective (R24, R343). -/
structure FenceReq where
  phys : Nat
  /-- Job the core was in. -/
  job : Option Nat
  /-- It takes effect next: it renumbers no core of another job, or its epoch has come; otherwise it waits. -/
  due : Bool
  deriving DecidableEq, Repr

end Sys2Proof.Machine
end

