-- ==== Sys2Proof/Machine/Net.lean ====
section
/-! DEFINITION. Structures of the Sloer fabric (10): packets and their header, ports, tags, messages, send rings,
completion rings, collectives. -/

namespace Sys2Proof.Machine

/-- What a packet says (R281) but its link fields. The fields that a type does not use are 0 (log entry 60). -/
structure Pkt where
  type : Nat := 0
  cls : Nat := 0
  job : Nat := 0
  src : Nat := 0
  dst : Nat := 0
  board : Nat := 0
  dev : Nat := 0
  via : Bool := false
  last : Bool := false
  poison : Bool := false
  op : Nat := 0
  coll : Nat := 0
  len : Nat := 0
  msg : Nat := 0
  tag : Nat := 0
  off : Nat := 0
  addr : Nat := 0
  data : List Byte := []
  deriving DecidableEq, Repr

/-- A packet on a link, with its link fields (R281, R283, R285). -/
structure Tx where
  pkt : Pkt
  lseq : Nat
  ack : Nat
  nak : Bool
  crdClass : Nat
  crd : Nat
  /-- Sent uncorrectable by INJ_UE (R306). -/
  ue : Bool := false
  deriving DecidableEq, Repr

/-- A Sloer port (R283–R286, R302–R304). -/
structure Port where
  up : Bool := false
  held : Bool := false
  training : Bool := false
  lanes : Nat := 0
  width : Nat := 0
  /-- Tick at which training began. -/
  trainT : Nat := 0
  /-- LSEQ of the next new packet, and last LSEQ received in order. -/
  txSeq : Nat := 0
  rxSeq : Nat := 4095
  /-- A NAK is owed; packets are discarded since a bad one. -/
  nak : Bool := false
  drop : Bool := false
  /-- Sent and not covered, oldest first; of these, those still to be sent again; replays in a row. -/
  replay : List Tx := []
  again : List Tx := []
  replays : Nat := 0
  /-- Flits by class 0–5: credit held, credit owed; and times passed over. -/
  credits : List Nat := []
  owed : List Nat := []
  starve : List Nat := []
  /-- Cycle of the last packet sent, and that packet. -/
  lastTx : Nat := 0
  tx : Option Tx := none
  /-- Calendar: master end, in window, due tick, tick before deferrals, deferrals, windows run. -/
  master : Bool := false
  window : Bool := false
  due : Nat := 0
  orig : Nat := 0
  defers : Nat := 0
  count : Nat := 0
  deriving DecidableEq, Repr

/-- A packet that waits for a port: ports of its route, whether the lowest one is taken (R299), and for a request its
send, the bytes it counts in the window and where its response lands. -/
structure OutPkt where
  pkt : Pkt
  ports : List Nat
  low : Bool := false
  send : Option Nat := none
  bytes : Nat := 0
  land_ : Nat := 0
  deriving DecidableEq, Repr

/-- A fabric tag in use (R287, R288). -/
structure Tag where
  job : Nat
  dst : Nat
  type : Nat
  bytes : Nat
  land_ : Nat
  send : Nat
  tick : Nat
  deriving DecidableEq, Repr

/-- A descriptor or hardware send whose requests are not all answered: KIND as in the descriptor, packets cut and not
answered, whether all are cut, whether it has ended with LINK_DOWN or poison. -/
structure Send where
  job : Nat
  kind : Nat
  dst : Nat
  msg : Nat
  coll : Nat
  total : Nat
  left : Nat := 0
  cut : Bool := false
  ended : Bool := false
  /-- Made by Squirrel, and whether it belongs to the running generation. -/
  hw : Bool := false
  gen : Bool := false
  deriving DecidableEq, Repr

/-- State of a send ring, as FAB_SQ_n_STAT encodes it (R307). -/
inductive RingState where
  | idle | active | wait | error
  deriving DecidableEq, Repr

/-- A send ring (R291): the descriptor read at HEAD, whether it has been started, bytes cut, its send, cycle of the last
read that found OWN = 0. -/
structure SendRing where
  st : RingState := .idle
  desc : Option Nat := none
  started : Bool := false
  off : Nat := 0
  send : Option Nat := none
  polled : Nat := 0
  err : Nat := 0
  deriving DecidableEq, Repr

/-- A completion ring (R296): records written since reset and records read as CQ_HEAD tells, both without wrapping,
records not reported, tick of the oldest of them. -/
structure Cq where
  idx : Nat := 0
  ahead : Nat := 0
  pend : Nat := 0
  oldest : Nat := 0
  deriving DecidableEq, Repr

/-- A collective that this device takes part in by a descriptor or as the gate's (R291, R300, R322). -/
structure Col where
  job : Nat
  mode : Nat
  op : Nat
  len : Nat
  src : Nat
  dst : Nat
  gate : Bool := false
  /-- Bytes of the own part taken; every chunk has landed. -/
  off : Nat := 0
  finished : Bool := false
  deriving DecidableEq, Repr

/-- A chunk in a slot of a collective ID (R301): input 0–9, 10 for the device's own part. -/
structure ColChunk where
  coll : Nat
  input : Nat
  off : Nat
  op : Nat
  job : Nat
  data : List Byte
  poison : Bool
  deriving DecidableEq, Repr

/-- The fabric. -/
structure Fabric where
  ports : Tbl Port := []
  out : List OutPkt := []
  tags : Tbl Tag := []
  /-- Tags that timed out, with the tick from which they may be used again (R297). -/
  quar : Tbl Nat := []
  sends : Tbl Send := []
  sendNo : Nat := 0
  /-- Message slots that ended with LINK_DOWN: job, destination rank, slot (R298). -/
  lost : List (Nat × Nat × Nat) := []
  rings : Tbl SendRing := []
  cqs : Tbl Cq := []
  cols : Tbl Col := []
  chunks : List ColChunk := []
  /-- Slot credits held at the next device, by 16 × input + collective ID; 8 when all are held (R301). -/
  slots : Tbl Nat := []
  /-- Bytes of the collective that have landed, by ID. -/
  landed : Tbl Nat := []
  /-- Messages given to the management processor, newest first: port and payload (R290). -/
  mgmt : List (Nat × List Byte) := []
  deriving DecidableEq, Repr

end Sys2Proof.Machine
end

