-- ==== Sys2Proof/Machine/Sys.lean ====
section
/-! DEFINITION. State of the always-on domain, the power controller, the trust controller and the firmware loader (14,
15) that no register holds. All plain data. -/

namespace Sys2Proof.Machine

/-- Power and clocks (14). -/
structure Pwr where
  /-- Power state 0–4 (R407), ticks since the device became idle, an exit to A0 under way (R408). -/
  cur : Nat := 0
  idle : Nat := 0
  leaving : Bool := false
  /-- Sixteenths of their cycles that paced blocks lose (R417); the clock step whose voltage VDD_ARR has (R475). -/
  pace : Nat := 0
  vid : Nat := 0
  /-- Every fast clock gated and THERM_N low (R417). -/
  therm : Bool := false
  /-- A rail fault holds the device in cold reset (R477). -/
  railHold : Bool := false
  /-- AON_TICK_HI as the last read of AON_TICK_LO latched it (R434). -/
  tickHi : Nat := 0
  /-- Grants made since reset. -/
  grantNo : Nat := 0
  /-- Jobs in reset (R422). -/
  jobRst : List Nat := []
  deriving DecidableEq, Repr

/-- A component of an image (R440). -/
structure FwComp where
  type : Nat
  off : Nat
  len : Nat
  digest : List Byte
  deriving DecidableEq, Repr

/-- What of a manifest the LT1 goes on using (R440). -/
structure Manifest where
  len : Nat
  svn : Nat
  version : Nat
  policy : Nat
  comps : List FwComp
  deriving DecidableEq, Repr

/-- Instructions of the JTAG port (R465): those always open, and those that a scope opens. -/
inductive JtagOp where
  | bypass | idcode | sample | boundary | observe | full
  deriving DecidableEq, Repr

/-- The trust controller (15 R454–R467). -/
structure Trust where
  /-- Fuses that change: owner key digests by slot, revoked slots, blown MIN_SVN bits, blown BLOCK bits, DEBUG_OFF (R455). -/
  owner : Tbl (List Byte) := []
  revoked : List Nat := []
  minSvn : Nat := 0
  blocks : List Nat := []
  debugOff : Bool := false
  /-- Always-on domain: next root leaf and the end of its block (R457). -/
  leaf : Nat := 0
  leafEnd : Nat := 0
  /-- The root tree can sign; a session tree stands, which one, its next leaf, trees built this boot (R458, R459). -/
  idOk : Bool := false
  sess : Option Nat := none
  sessLeaf : Nat := 0
  /-- Root leaf that signed the session tree. -/
  sessRoot : Nat := 0
  sessNo : Nat := 0
  /-- Draws from the TRNG so far. -/
  rng : Nat := 0
  trngOk : Bool := true
  exhausted : Bool := false
  cacheBad : Bool := false
  /-- FULL debug has erased the trees (R466). -/
  erased : Bool := false
  /-- Debug: nonce of the last challenge, open scope, ticks left. -/
  nonce : Option (List Byte) := none
  scope : Nat := 0
  left : Nat := 0
  /-- The instruction in the JTAG port; IDCODE after a reset, as IEEE 1149.1 has it (R465, R472, log entry 140). -/
  tap : JtagOp := .idcode
  deriving DecidableEq, Repr

/-- The boot and the firmware loader (15 R435–R453, R468). -/
structure Firmware where
  /-- The board flash, bytes that are not 0xFF; the staging SRAM and the data window, bytes that are not 0. -/
  flash : List Host.Cell := []
  stage : List Host.Cell := []
  window : List Host.Cell := []
  /-- Tick at which the boot began; failed fuse sensings; a recovery request in the always-on domain (R441). -/
  bootT : Nat := 0
  fuseFails : Nat := 0
  recover : Bool := false
  /-- The boot goes on from the staged image (R443); a cold boot. -/
  pushed : Bool := false
  cold : Bool := true
  /-- Running manifest. -/
  man : Option Manifest := none
  /-- Fuses sensed (R435). -/
  fuseOk : Bool := false
  /-- Cores not good (R18), and chunks that cores miss after a broadcast, with the rounds each has made (R445). -/
  badCores : List Nat := []
  missing : Tbl (List Nat) := []
  rounds : Tbl Nat := []
  /-- Lanes that qualified, by port (R448); ports whose identity exchange is over (R462). -/
  lanes : Tbl Nat := []
  peers : List Nat := []
  /-- Staged image: verified (R450). A WRITE_FLASH in progress (R452). -/
  verified : Bool := false
  writing : Bool := false
  /-- Components whose replacement has not taken effect: cores due a core image, ports with lanes left, stacks (R451). -/
  coresDue : List Nat := []
  lanesDue : Tbl Nat := []
  stacksDue : List Nat := []
  deriving DecidableEq, Repr

end Sys2Proof.Machine
end

