-- ==== Sys2Proof/Machine/Device.lean ====
section
/-! DEFINITION. `Dev`: the machine but its queue of waiting commands. -/

namespace Sys2Proof.Machine

/-- Everything the device holds. -/
structure Dev where
  /-- Main-clock cycles, and the number of free values used (MODEL'S OWN). -/
  cycle : Nat := 0
  free : Nat := 0
  /-- Registers by BAR0 address: values in effect that differ from their reset values (R8, R12). -/
  regs : Tbl Word := []
  /-- Bits of W1C registers that events have set at time `evAt`, a cycle and a tick (R13). -/
  evBits : Tbl Word := []
  evAt : Nat × Nat := (0, 0)
  /-- Shadows of RWS registers that differ from the value in effect (R12, R425). -/
  shadow : Tbl Word := []
  /-- Bytes of HBM by storage address and of core memory by physical address, those that are not zero. -/
  mem : List Host.Cell := []
  /-- Poisoned 64-byte blocks: address / 64. -/
  poison : List Nat := []
  /-- Symbol errors standing in stored blocks. -/
  errs : Tbl (List SymErr) := []
  hostMem : List Host.Cell := []
  hostPoison : List Nat := []
  /-- Lines present in their home slices, by storage address / 128. -/
  cache : Tbl CLine := []
  /-- HBM transactions by pseudo-channel, as the cycles that end them (R239); one more than the cycle last counted as a wait
  of a slice (R248). -/
  trx : Tbl (List Nat) := []
  sccCnt : Tbl Nat := []
  /-- Corrections of the calibration period by 64 × pseudo-channel + symbol (R233). -/
  lineCnt : Tbl Nat := []
  stackT : Tbl Stack := []
  cores : Tbl Core := []
  /-- Router reduce buffers: (core × 16 + ID) × 8 + port → packet (R39, R40). -/
  redBuf : Tbl RedPkt := []
  /-- Next chunk that a router combines of an ID: core × 16 + ID (R40). -/
  redNo : Tbl Nat := []
  /-- Sums forwarded and not yet at their next router, and those that have reached their destination core, newest last,
  by the same keys (R39). -/
  redFly : Tbl (List RedPkt) := []
  redOut : Tbl (List RedPkt) := []
  /-- NOC_RED writes made while their ID was busy (R43). -/
  redLate : Tbl Word := []
  chans : Tbl DmaChan := []
  images : Tbl Image := []
  imageNo : Nat := 0
  /-- Gate: tick of ARM, tick of READY, and the high-water mark that an assignment in progress uses, by job (R317, R324). -/
  armT : Tbl Nat := []
  readyT : Tbl Nat := []
  armHwm : Tbl Nat := []
  /-- Jobs whose gate collective is to be sent (R322). -/
  gateSends : List Nat := []
  owl : Owl := {}
  sqrJobs : Tbl SqrJob := []
  /-- Registered pages by physical address / 64 KiB, those not CLEAN and idle. -/
  sqrPages : Tbl SqrPage := []
  /-- Pages whose first-touch copy runs, and the writes held for them, in order of arrival. -/
  sqrCopy : List Nat := []
  sqrHeld : List HeldWrite := []
  sqrStage : List Nat := []
  /-- By die, bytes of the copy budget used in the quantum and those of first-touch copies alone; the cycle in which the
  quantum began (R354). -/
  sqrUsed : Tbl Nat := []
  sqrFt : Tbl Nat := []
  sqrQ : Nat := 0
  /-- By registration entry: pages that the running generation found TOUCHED, TOUCHED of the committed generation
  before the last, and the METHOD of the generation before the running one (R351, R353). -/
  sqrTouch : Tbl Nat := []
  sqrPrev : Tbl Nat := []
  sqrOld : Tbl Nat := []
  /-- Entries of which a generation has been committed. -/
  sqrCom : List Nat := []
  /-- Squirrel's sends that have not entered the fabric. -/
  hwSends : List HwSend := []
  /-- Core fences asked for that have not taken effect, oldest first (R24, R343). -/
  fences : List FenceReq := []
  /-- Job of the epoch request in progress; `none`: every active core (R428). -/
  epochJob : Option Nat := none
  /-- Sloer fabric (10). -/
  fab : Fabric := {}
  cb : CmdBlock := {}
  /-- Always-on tick (R402). -/
  tick : Nat := 0
  /-- Power leave (R411–R416): tokens in the budget, requests in queue order, grants oldest first. -/
  budget : Nat := 0
  leaveQ : List LeaveReq := []
  grants : List LeaveGrant := []
  /-- Power controller, trust controller, firmware loader (14, 15). -/
  pw : Pwr := {}
  tru : Trust := {}
  fw : Firmware := {}
  /-- MSI-X table dwords, pending bits, enable; messages sent, newest first (R368, R491). -/
  msix : Tbl Word := []
  pba : List Nat := []
  msixEn : Bool := false
  sent : List Nat := []
  /-- Data and poison of the last completion returned to the host. -/
  rdata : List Byte := []
  rpoison : Bool := false
  /-- The last completion had status UR. -/
  rur : Bool := false
  /-- The last response carried the refused mark (R30). -/
  rref : Bool := false
  deriving DecidableEq, Repr

end Sys2Proof.Machine
end

