-- ==== Sys2Proof/Machine/Ops.lean ====
section
/-! DEFINITION. Named operations every family uses: registers and counters, error bits and interrupts
(R491), core memory (R201–R206), stacked memory behind its home slices (R226–R237), host memory, Owl
events. -/

namespace Sys2Proof.Machine

/-! ## Registers -/

/-- A register's value in effect. -/
def Dev.reg (d : Dev) (a : Nat) : Word := d.regs.getD a (resetVal a)

/-- A register replaced. -/
def Dev.setReg (d : Dev) (a : Nat) (w : Word) : Dev :=
  { d with regs := d.regs.store (resetVal a) a w }

/-- Bits [hi:lo] of a register. -/
def Dev.fld (d : Dev) (a hi lo : Nat) : Nat := Machine.fld (d.reg a) hi lo

/-- Bit n of a register. -/
def Dev.bit (d : Dev) (a n : Nat) : Bool := flag (d.reg a) n

/-- Bits [hi:lo] of a register replaced. -/
def Dev.setF (d : Dev) (a hi lo v : Nat) : Dev := d.setReg a (setFld (d.reg a) hi lo v)

/-- One bit of a register replaced. -/
def Dev.putB (d : Dev) (a n : Nat) (b : Bool) : Dev := d.setReg a (putBit (d.reg a) n b)

/-- A saturating counter register increased. -/
def Dev.inc (d : Dev) (a : Nat) (n : Nat := 1) : Dev := d.setReg a (satAdd (d.reg a) n)

/-- A wrapping counter register increased. -/
def Dev.incWrap (d : Dev) (a : Nat) (n : Nat := 1) : Dev := d.setReg a (d.reg a + BitVec.ofNat 32 n)

/-- The register's shadow: what a write of an RWS field reaches and a read returns (R12). -/
def Dev.shad (d : Dev) (a : Nat) : Word := d.shadow.getD a (d.reg a)

/-- A 48-bit address held in a LO and a HI register, with the bits of LO below `cut` dropped. -/
def Dev.addr48 (d : Dev) (lo hi cut : Nat) : Nat :=
  (d.reg lo).toNat / 2 ^ cut * 2 ^ cut + d.fld hi 15 0 * 2 ^ 32

/-! ## Free values -/

/-- The number of the next free value is used up. -/
def Dev.useFree (d : Dev) : Dev := { d with free := d.free + 1 }

/-! ## Error bits and interrupts -/

/-- An MSI-X message (R368, R491): a masked vector sets its pending bit instead, as PCIe lays out; without Bus Master
Enable or link the host interface refuses the write (R366). -/
def Dev.sendMsix (d : Dev) (v : Nat) : Dev :=
  if !d.msixEn then d
  else if flag (d.msix.getD (4 * v + 3) 1) 0 then { d with pba := setIns d.pba v }
  else if d.cb.up && d.cb.bme then { d with sent := v :: d.sent } else d

/-- The vector a page's ERR_STAT source uses (R491): GLB_IRQ_VECTOR unless its chapter names one. -/
def Dev.vectorOf (d : Dev) (page bit : Nat) : Nat :=
  if page = aOwl 0 ∧ bit ≤ 1 then d.fld (aOwl 0x100) 26 16 else d.fld (aGlb 0x100) 10 0

/-- An interrupt source of a page, by INT_EN bit, whose condition has just been set anew. -/
def Dev.source (d : Dev) (page bit : Nat) (vec : Nat) : Dev :=
  if d.bit (page + 0x1C) bit then d.sendMsix vec else d

/-- Bits of a register that events have set in this cycle: a write of 1s in it leaves them set (R13). -/
def Dev.eventBits (d : Dev) (a : Nat) : Word := if d.evAt = (d.cycle, d.tick) then d.evBits.getD a 0 else 0

/-- An event sets a W1C bit in this cycle (R13). -/
def Dev.event (d : Dev) (a n : Nat) : Dev :=
  { d with evAt := (d.cycle, d.tick), evBits := (if d.evAt = (d.cycle, d.tick) then d.evBits else []).store 0 a (putBit (d.eventBits a) n true) }

/-- A hardware event sets a bit of a page's ERR_STAT and sends the page's interrupt when it was clear,
enabled and not masked (R13, R491); INT_EN [0] of the RST and FWL pages belongs to
EPOCH_DONE and READY (R433, R437). -/
def Dev.raise (d : Dev) (page bit : Nat) : Dev :=
  if d.bit (page + 0x10) bit then d.event (page + 0x10) bit
  else
    let d1 := (d.event (page + 0x10) bit).putB (page + 0x10) bit true
    if d.bit (page + 0x14) bit || ((page == aRst 0 || page == aFwl 0) && bit == 0) then d1 else d1.source page bit (d1.vectorOf page bit)

/-! ## Cores -/

/-- A core's state. -/
def Dev.core (d : Dev) (c : Nat) : Core := d.cores.getD c {}

/-- A core's state replaced. -/
def Dev.setCore (d : Dev) (c : Nat) (k : Core) : Dev := { d with cores := d.cores.store {} c k }

/-- A core's state changed by a function. -/
def Dev.onCore (d : Dev) (c : Nat) (f : Core → Core) : Dev := d.setCore c (f (d.core c))

/-- A progress event of the core (R186). -/
def Dev.progress (d : Dev) (c : Nat) : Dev := d.onCore c (fun k => { k with progress := true })

/-- State of a physical core in the floor plan: 0 ACTIVE, 1 SPARE, 2 FENCED_BOOT, 3 FENCED_RUN (R47). -/
def Dev.fpState (d : Dev) (c : Nat) : Nat := bitsN (d.reg (aFp (0x110 + c / 4 * 4))).toNat (8 * (c % 4) + 1) (8 * (c % 4))

/-- A core that is fenced (R29). -/
def Dev.fenced (d : Dev) (c : Nat) : Bool := decide (2 ≤ d.fpState c) || d.fences.any (fun f => f.phys == c)

/-- Die of a core (R4). -/
def dieOf (c : Nat) : Nat := c / 156

/-! ## Memory cells -/

/-- The value of a byte that nothing has written: zero. R206 gives it for core memory; for HBM and host
memory it is a DESIGN CHOICE (log entry 4). -/
def memDefault : Byte := 0

/-- One byte of a memory list. -/
def cellAt (m : List Host.Cell) (a : Nat) : Byte := Tbl.getD m a memDefault

/-- One byte written; a byte equal to what an unlisted address reads as is not listed. -/
def cellPut (m : List Host.Cell) (a : Nat) (b : Byte) : List Host.Cell := Tbl.store memDefault m a b

/-- n bytes from an address. -/
def cellsAt (m : List Host.Cell) (a n : Nat) : List Byte := (List.range n).map (fun i => cellAt m (a + i))

/-- Bytes written from an address up. -/
def cellsPut : List Host.Cell → Nat → List Byte → List Host.Cell
  | m, _, [] => m
  | m, a, b :: t => cellsPut (cellPut m a b) (a + 1) t

/-- The canonical form of a memory list: addresses strictly rising, no entry equal to the default. -/
def Memory.wf (m : List Host.Cell) : Bool := Tbl.risesFrom 0 m && m.all (fun p => p.2 != memDefault)

/-- Mark or clear the poison of a 64-byte block. -/
def Dev.setPoison (d : Dev) (blk : Nat) (p : Bool) : Dev :=
  { d with poison := if p then setIns d.poison blk else setDel d.poison blk }

/-- An Owl event input takes n events while the monitor is enabled: an interval begins when EN is set (R347). -/
def Dev.owlEv (d : Dev) (k n : Nat) : Dev :=
  if n = 0 ∨ d.bit (aOwl 0x100) 31 = false then d
  else { d with owl := { d.owl with ev := d.owl.ev.put k (d.owl.ev.getD k 0 + n) } }

/-! ## PCIe errors (R361, R365) -/

/-- An uncorrectable error of the function: its AER status bit, and a message when the host's mask lets it (R361, R365). -/
def Dev.aerError (d : Dev) (bit : Nat) : Dev :=
  { d with cb := { d.cb with aer := d.cb.aer ||| 2 ^ bit, aerSent := d.cb.aerSent + b2n (!bitN d.cb.aerMask bit) } }

/-- A poisoned TLP received: counted, and reported as AER's bit 12 (R365). -/
def Dev.poisonRx (d : Dev) : Dev := ((d.inc (aHif 0x110)).raise (aHif 0) 1).aerError 12

/-! ## Core memory (R199–R206) -/

/-- Address of byte `off` of a core's memory (R7). -/
def cmemBase (c : Nat) : Nat := 0xF00000000000 + 0x400000 * c

/-- The core and offset of an address in the core-memory windows. -/
def cmemOf (a : Nat) : Option (Nat × Nat) :=
  if 0xF00000000000 ≤ a ∧ a < 0xF00000000000 + 312 * 0x400000 then
    some (a % 0x100000000000 / 0x400000, a % 0x400000)
  else none

/-- Symbol errors of one codeword. -/
def cwErrs (l : List SymErr) (cw : Nat) : List SymErr := l.filter (fun e => e.cw == cw)

/-- The bytes as stored, with the symbol errors of core memory or slice SRAM in them (8-bit symbols,
32 data symbols a codeword, R201). -/
def withErrs8 (l : List SymErr) (data : List Byte) : List Byte :=
  l.foldl (fun dt e => if e.sym < 32 then setAt dt (32 * e.cw + e.sym) ((dt.getD (32 * e.cw + e.sym) 0) ^^^ BitVec.ofNat 8 e.e) else dt) data

/-- What a read of a block of the code of R201 finds: corrected codewords, and whether one is
uncorrectable (two or more bad symbols; the code detects any two, DESIGN CHOICE beyond, log entry 14). -/
def decode8 (l : List SymErr) : List Nat × List Nat :=
  ([0, 1].filter (fun w => (cwErrs l w).length == 1), [0, 1].filter (fun w => 2 ≤ (cwErrs l w).length))

/-- First error record of a core (R202): kept while VALID. -/
def Dev.cmemRecord (d : Dev) (c off : Nat) (ue : Bool) (sym cw : Nat) : Dev :=
  if d.bit (aCmem c 0x118) 31 then d
  else d.setReg (aCmem c 0x118) (BitVec.ofNat 32 (0x80000000 + b2n ue * 2 ^ 30 + 2 ^ 24 * sym + 2 ^ 23 * cw + off / 64 * 64))

/-- Read of one 64-byte block of a core's memory (R202, R203): the data and its poison. -/
def Dev.cmemRead (d : Dev) (c off : Nat) : Dev × List Byte × Bool :=
  let a := cmemBase c + off / 64 * 64
  let data := cellsAt d.mem a 64
  let l := d.errs.getD (a / 64) []
  let p := d.poison.contains (a / 64)
  let (ce, ue) := decode8 l
  let d1 := if ce.isEmpty then d else
    ((((d.inc (aCmem c 0x10C) ce.length).owlEv 3 ce.length).cmemRecord c off false
      (((cwErrs l (ce.headD 0)).headD ⟨0, 0, 0⟩).sym) (ce.headD 0)).raise (aCmem c 0) 0)
  let d2 := if ue.isEmpty then d1 else
    ((((d1.inc (aCmem c 0x110) ue.length).owlEv 1 ue.length).cmemRecord c off true 0x3F (ue.headD 0)).raise (aCmem c 0) 1).setPoison (a / 64) true
  let d3 := if p then (d2.inc (aCmem c 0x114)).raise (aCmem c 0) 2 else d2
  let bad := l.filter (fun e => ue.contains e.cw)
  (d3, withErrs8 bad data, p || !ue.isEmpty)

/-- ERR_INJ of a core's memory on a full-block write (R223), which each bit then leaves. -/
def Dev.cmemInject (d : Dev) (c a : Nat) : Dev :=
  let w := d.reg (aCmem c 0x18)
  let e : List SymErr := (if flag w 0 then [⟨0, 0, 1⟩] else []) ++ (if flag w 1 then [⟨1, 0, 1⟩, ⟨1, 1, 1⟩] else [])
  let d1 := if e.isEmpty then d else { d with errs := d.errs.put (a / 64) e }
  let d2 := if flag w 2 then d1.setPoison (a / 64) true else d1
  if w = 0 then d2 else d2.setReg (aCmem c 0x18) 0

/-- Full 64-byte write of a core's memory: stores the poison that arrives with the data (R203). -/
def Dev.cmemWrite (d : Dev) (c off : Nat) (data : List Byte) (p : Bool) : Dev :=
  let a := cmemBase c + off / 64 * 64
  (({ d with mem := cellsPut d.mem a (padTo 64 0 data), errs := d.errs.del (a / 64) }).setPoison (a / 64) p).cmemInject c a

/-- Write of part of a block: read-modify-write; a poisoned or uncorrectable block stays or becomes
poisoned (R204), and poisoned data poisons it (R261). -/
def Dev.cmemPart (d : Dev) (c off : Nat) (data : List Byte) (p : Bool) : Dev :=
  let a := cmemBase c + off
  let (d1, old, bad) := d.cmemRead c off
  let nu := (old.take (off % 64)) ++ data ++ old.drop (off % 64 + data.length)
  ({ d1 with mem := cellsPut d1.mem (a / 64 * 64) nu, errs := d1.errs.del (a / 64) }).setPoison (a / 64) (bad || p)

/-- Access slots of a class in the quantum: 8 × its CMEM_BW_SPLIT field (R208). Class 0 READ, 1 WRITE,
2 REMOTE. -/
def Dev.share (d : Dev) (c cls : Nat) : Nat := 8 * d.fld (aCmem c 0x100) (8 * cls + 5) (8 * cls)

/-- Does a class have n slots left? -/
def Dev.hasSlots (d : Dev) (c cls n : Nat) : Bool := decide (((d.core c).used.getD cls 0) + n ≤ d.share c cls)

/-- Take n access slots. -/
def Dev.takeSlots (d : Dev) (c cls n : Nat) : Dev :=
  d.onCore c (fun k => { k with used := setAt k.used cls (k.used.getD cls 0 + n) })

/-- A cycle in which a class waits on its share, counted once (R208). -/
def Dev.shareWait (d : Dev) (c cls : Nat) : Dev :=
  if (d.core c).shareCnt.getD cls 0 = d.cycle + 1 then d
  else (d.onCore c (fun k => { k with shareCnt := k.shareCnt.put cls (d.cycle + 1) })).inc (aCmem c (0x120 + 4 * cls))

/-- Bank of a byte offset in a core's window (R199). -/
def bankOf (a : Nat) : Nat := bitsN a 10 6 ^^^ bitsN a 15 11

/-- Banks granted in this cycle. -/
def Core.banksNow (k : Core) (cyc : Nat) : List Nat := if k.bankCyc = cyc then k.bankUse else []

/-- A bank granted in this cycle. -/
def Core.takeBank (k : Core) (off cyc : Nat) : Core := { k with bankCyc := cyc, bankUse := bankOf off :: k.banksNow cyc }

/-- What keeps an access that takes n slots of a class from a block of a core's memory in this cycle: the class's share (0),
the bank (1), or the eight grants of a cycle (2) (R200, R208). -/
def Dev.cmemWait (d : Dev) (c cls n off : Nat) : Option Nat :=
  if !d.hasSlots c cls n then some 0
  else if ((d.core c).banksNow d.cycle).contains (bankOf off) then some 1
  else if 8 ≤ ((d.core c).banksNow d.cycle).length then some 2
  else none

/-- The access is granted: its slots and its bank. -/
def Dev.cmemGrant (d : Dev) (c cls n off : Nat) : Dev := (d.takeSlots c cls n).onCore c (fun k => k.takeBank off d.cycle)

/-- The access waits: a bank conflict is counted (R200), and for REMOTE a cycle without share (R208). -/
def Dev.cmemHeld (d : Dev) (c cls w : Nat) : Dev :=
  if w = 1 then d.inc (aCmem c 0x11C) else if w = 0 ∧ cls = 2 then d.shareWait c 2 else d

/-! ## Stacked memory: decode (R227), symbol code (R229–R231) -/

/-- End of HBM (R1). -/
def hbmEnd : Nat := 0x018000000000

/-- Is pair p LOCAL (R227, R228)? -/
def Dev.isLocal (d : Dev) (p : Nat) : Bool := d.bit (aMap (0x180 + 4 * (p / 32))) (p % 32)

/-- Pseudo-channel, slice and offset of an HBM address (R227). -/
def hbmDecode (lcl : Bool) (pa : Nat) : Nat × Nat × Nat :=
  let f := bitsN pa 40 30
  let c := bitsN pa 29 8
  if lcl then ((f % 2) * 512 + (bitsN c 8 0 ^^^ bitsN c 17 9), 2 * (f / 2) + bitsN c 21 21, bitsN c 20 9 * 256 + pa % 256)
  else (bitsN c 9 0 ^^^ bitsN c 19 10, f, bitsN c 21 10 * 256 + pa % 256)

/-- Storage address of an HBM address: pseudo-channel, slice, offset, in 1 MiB slices (R226, R227). -/
def Dev.hbmKey (d : Dev) (pa : Nat) : Nat :=
  let (g, sl, off) := hbmDecode (d.isLocal (bitsN pa 40 30 / 2)) pa
  0x100000 * (1536 * g + sl) + off

/-- Pseudo-channel of a storage address. -/
def keyPc (k : Nat) : Nat := k / 0x100000 / 1536

/-- Stack of a storage address (R224). -/
def keyStack (k : Nat) : Nat := keyPc k / 64

/-- Home slice of a storage address: die × 16 + slice (R235). -/
def keySlice (k : Nat) : Nat :=
  let st := keyStack k
  st / 8 * 16 + 2 * (st % 8) + b2n (decide (16 ≤ keyPc k % 64 / 2))

/-- A stack's state. -/
def Dev.stack (d : Dev) (i : Nat) : Stack := d.stackT.getD i {}

/-- A stack's state replaced. -/
def Dev.setStack (d : Dev) (i : Nat) (k : Stack) : Dev := { d with stackT := d.stackT.store {} i k }

/-- Product in GF(2^4) built with x^4 + x + 1 (R229). -/
def gfMul (a b : Nat) : Nat :=
  let x2 (v : Nat) := if v % 16 < 8 then (v * 2) % 16 else ((v * 2) % 16) ^^^ 3
  ((if bitN b 0 then a else 0) ^^^ (if bitN b 1 then x2 a else 0)) ^^^
    ((if bitN b 2 then x2 (x2 a) else 0) ^^^ (if bitN b 3 then x2 (x2 (x2 a)) else 0))

/-- α^n. -/
def gfPow : Nat → Nat
  | 0 => 1
  | n + 1 => gfMul 2 (gfPow n)

/-- Parity-check column of symbol n (R230). -/
def hCol (n : Nat) : List Nat :=
  if n = 33 then [0, 0, 0, 1]
  else
    let (u, v) : Nat × Nat :=
      if n < 15 then (gfPow n, 1) else if n < 30 then (gfPow (n - 15), 2) else if n = 30 then (0, 2)
      else if n = 31 then (0, 4) else if n = 32 then (0, 0) else if n = 34 then (1, 0) else (0, 1)
    [1, u, v, gfMul u u ^^^ (gfMul u v ^^^ gfMul 8 (gfMul v v))]

/-- Syndrome P of poisoned data (R230). -/
def poisonSyn : List Nat := [0x1, 0x0, 0x8, 0xA]

/-- Sum of two syndromes. -/
def synAdd (a b : List Nat) : List Nat := List.zipWith (fun x y => x ^^^ y) a b

/-- Syndrome of a codeword: only the poison and the symbol errors matter. -/
def syndrome (p : Bool) (l : List SymErr) : List Nat :=
  l.foldl (fun s e => synAdd s ((hCol e.sym).map (gfMul e.e))) (if p then poisonSyn else [0, 0, 0, 0])

/-- How a codeword decodes (R231). -/
inductive CwRead where
  | clean | poisoned | corrected (sym e : Nat) | uncorrectable
  deriving DecidableEq, Repr

/-- The symbol and value that a syndrome names. -/
def findSym (s : List Nat) : Option (Nat × Nat) :=
  ((List.range 36).flatMap (fun n => (List.range 15).map (fun e => (n, e + 1)))).find? (fun p => (hCol p.1).map (gfMul p.2) == s)

/-- Decode of one codeword (R231). -/
def cwDecode (p : Bool) (l : List SymErr) : CwRead :=
  if l.isEmpty then (if p then .poisoned else .clean)
  else
    let s := syndrome p l
    if s = [0, 0, 0, 0] then .clean
    else if s = poisonSyn then .poisoned
    else match findSym s with
      | some (n, e) => .corrected n e
      | none => .uncorrectable

/-- Bytes of a block with symbol differences of codeword errors in them: codeword k covers bytes
16k … 16k + 15, symbol n < 32 the low or high half of byte n / 2 (R229). -/
def withErrs4 (l : List SymErr) (data : List Byte) : List Byte :=
  l.foldl (fun dt e =>
    if e.sym < 32 then
      let i := 16 * e.cw + e.sym / 2
      setAt dt i (dt.getD i 0 ^^^ BitVec.ofNat 8 (if e.sym % 2 = 0 then e.e else 16 * e.e))
    else dt) data

/-- First error record of a stack (R232). -/
def Dev.hmcRecord (d : Dev) (i pa : Nat) (ue : Bool) (sym cw : Nat) : Dev :=
  if d.bit (aHmc i 0x114) 31 then d
  else (d.setReg (aHmc i 0x110) (BitVec.ofNat 32 pa)).setReg (aHmc i 0x114)
    (BitVec.ofNat 32 (0x80000000 + b2n ue * 2 ^ 30 + 2 ^ 24 * sym + 2 ^ 22 * cw + bitsN pa 40 32))

/-- A correction counted against its (pseudo-channel, line) pair (R232, R233). -/
def Dev.lineCorr (d : Dev) (g sym : Nat) : Dev :=
  let n := d.lineCnt.getD (64 * g + sym) 0 + 1
  let d1 := { d with lineCnt := d.lineCnt.put (64 * g + sym) n }
  if n = max 1 (d.fld (aMap 0x108) 7 0) then
    let i := g / 64
    let d2 := if d1.bit (aHmc i 0x118) 31 then d1 else
      d1.setReg (aHmc i 0x118) (BitVec.ofNat 32 (0x80000000 + g * 64 + sym))
    d2.raise (aHmc i 0) 3
  else d1

/-- How the four codewords of a stored block decode (R231). -/
def Dev.blockReads (d : Dev) (k : Nat) : List (Nat × CwRead) :=
  (List.range 4).map (fun w => (w, cwDecode (d.poison.contains (k / 64)) (cwErrs (d.errs.getD (k / 64) []) w)))

/-- Corrections and uncorrectable codewords of a read counted and recorded (R232, R233). -/
def Dev.hmcCount (d : Dev) (k pa : Nat) (rs : List (Nat × CwRead)) : Dev :=
  let i := keyStack k
  rs.foldl (fun d (r : Nat × CwRead) =>
    match r.2 with
    | .corrected sym _ => (((d.inc (aHmc i 0x104)).owlEv 0 1).hmcRecord i pa false sym r.1).lineCorr (keyPc k) sym |>.raise (aHmc i 0) 0
    | .uncorrectable => (((d.inc (aHmc i 0x108)).owlEv 1 1).hmcRecord i pa true 0x3F r.1).raise (aHmc i 0) 1
    | _ => d) d

/-- Read of one 64-byte block from HBM storage (R231, R232): data and poison. -/
def Dev.hbmBlock (d : Dev) (k pa : Nat) : Dev × List Byte × Bool :=
  let a := k / 64 * 64
  let i := keyStack k
  let l := d.errs.getD (a / 64) []
  let rs := d.blockReads a
  let d1 := d.hmcCount k pa rs
  let bad := rs.any (fun r => r.2 == .poisoned || r.2 == .uncorrectable)
  let d2 := if bad then (d1.inc (aHmc i 0x10C)).raise (aHmc i 0) 2 else d1
  let wrong := l.filter (fun e => rs.any (fun r => r.1 == e.cw && (r.2 == .poisoned || r.2 == .uncorrectable || r.2 == .clean)))
  let fixed := rs.filterMap (fun r => match r.2 with
    | .corrected sym e => some (SymErr.mk r.1 sym e)
    | _ => none)
  let miss := l.filter (fun e => fixed.any (fun f => f.cw == e.cw))
  (d2, withErrs4 fixed (withErrs4 (wrong ++ miss) (cellsAt d.mem a 64)), bad)

/-- ERR_INJ of a stack on a full-block write (R247). -/
def Dev.hbmInject (d : Dev) (k : Nat) : Dev :=
  let i := keyStack k
  let w := d.reg (aHmc i 0x18)
  let e : List SymErr := (if flag w 0 then [⟨0, 0, 1⟩] else []) ++ (if flag w 1 then [⟨1, 0, 1⟩, ⟨1, 1, 1⟩] else [])
  let d1 := if e.isEmpty then d else { d with errs := d.errs.put (k / 64) e }
  let d2 := if flag w 2 then d1.setPoison (k / 64) true else d1
  if w = 0 then d2 else d2.setReg (aHmc i 0x18) 0

/-- Write of one 64-byte block to HBM storage, poisoned blocks with syndrome P (R237); a held stack
discards it and counts it (R226). -/
def Dev.hbmStore (d : Dev) (k : Nat) (data : List Byte) (p : Bool) : Dev :=
  let i := keyStack k
  if (d.stack i).held then d.inc (aHmc i 0x108)
  else (({ d with mem := cellsPut d.mem (k / 64 * 64) (padTo 64 0 data), errs := d.errs.del (k / 64) }).setPoison (k / 64) p).hbmInject k

/-! ## Home slices (R235–R237) -/

/-- A line of its home slice. -/
def Dev.line (d : Dev) (k : Nat) : CLine := d.cache.getD (k / 128) {}

/-- Is the 64-byte block present in its home slice? -/
def CLine.has (l : CLine) (k : Nat) : Bool := if k / 64 % 2 = 0 then l.v0 else l.v1

/-- The block's data and poison in a line. -/
def CLine.get (l : CLine) (k : Nat) : List Byte × Bool := if k / 64 % 2 = 0 then (l.d0, l.p0) else (l.d1, l.p1)

/-- A block put into a line. -/
def CLine.set (l : CLine) (k : Nat) (data : List Byte) (p dirty : Bool) : CLine :=
  if k / 64 % 2 = 0 then { l with v0 := true, d0 := padTo 64 0 data, p0 := p, dirty := l.dirty || dirty }
  else { l with v1 := true, d1 := padTo 64 0 data, p1 := p, dirty := l.dirty || dirty }

/-- A line written back from its home slice; on a held stack the write fails, is counted, and leaves the storage poisoned (R226,
R238). -/
def Dev.hbmBack (d : Dev) (k : Nat) (data : List Byte) (p : Bool) : Dev :=
  if (d.stack (keyStack k)).held then (d.hbmStore k data p).setPoison (k / 64) true else d.hbmStore k data p

/-- Cycles for which a line read or write-back keeps its transaction entry: what a miss takes longer than a hit (R239; DESIGN
CHOICE, log entry 117). -/
def trxCycles : Nat := 190

/-- Transaction entries of a pseudo-channel in use, as the cycles that end them (R239). -/
def Dev.trxOpen (d : Dev) (g : Nat) : List Nat := (d.trx.getD g []).filter (fun e => decide (d.cycle < e))

/-- Are the 64 entries of a storage address's pseudo-channel all in use? -/
def Dev.trxFull (d : Dev) (k : Nat) : Bool := decide (64 ≤ (d.trxOpen (keyPc k)).length)

/-- A line read or write-back takes an entry. -/
def Dev.trxTake (d : Dev) (k : Nat) : Dev := { d with trx := d.trx.put (keyPc k) (d.trxOpen (keyPc k) ++ [d.cycle + trxCycles]) }

/-- Write back and drop one line of its home slice (R237, R238). -/
def Dev.evict (d : Dev) (ln : Nat) : Dev :=
  let l := d.cache.getD ln {}
  let k := ln * 128
  let d1 := if l.dirty then
      let a := if l.v0 then d.hbmBack k l.d0 l.p0 else d
      let b := if l.v1 then a.hbmBack (k + 64) l.d1 l.p1 else a
      (b.trxTake k).inc (aScc (keySlice k) 0x108)
    else d
  { d1 with cache := d1.cache.del ln }

/-- Every dirty line written back and every line dropped, of the slices a test picks (R238). -/
def Dev.writeBack (d : Dev) (f : Nat → Bool) : Dev :=
  (d.cache.map (fun p => p.1)).foldl (fun d ln => if f (keySlice (ln * 128)) then d.evict ln else d) d

/-- Lines of a slice: 8 MiB of 128 bytes (R1, R235). -/
def sliceCap : Nat := 65536

/-- Lines that a slice holds. -/
def Dev.sliceLines (d : Dev) (s : Nat) : List Nat := (d.cache.map (fun p => p.1)).filter (fun ln => keySlice (ln * 128) == s)

/-- Is a line present in its home slice, or is there room for it? -/
def Dev.roomFor (d : Dev) (k : Nat) : Bool := (Tbl.look d.cache (k / 128)).isSome || decide ((d.sliceLines (keySlice k)).length < sliceCap)

/-- The line that a full slice gives up for another; the spec names none: a free one (log entry 117). -/
def Dev.victim (d : Dev) (k : Nat) : Nat :=
  let l := d.sliceLines (keySlice k)
  l.getD ((Config.freeValue d.free).toNat % l.length) 0

/-- Room for a line in its home slice. -/
def Dev.makeRoom (d : Dev) (k : Nat) : Dev := if d.roomFor k then d else (d.evict (d.victim k)).useFree

/-- A stack that serves nothing now: in its window or in self-refresh (R245, R226). -/
def Dev.stackBusy (d : Dev) (k : Nat) : Bool := (d.stack (keyStack k)).window || (d.stack (keyStack k)).selfRefresh

/-- Does a line's home slice have to wait before it allocates the line: the line it gives up is dirty, and cannot be written back
now (R239)? -/
def Dev.allocWaits (d : Dev) (k : Nat) : Bool :=
  !d.roomFor k && (d.cache.getD (d.victim k) {}).dirty && (d.stackBusy (d.victim k * 128) || d.trxFull (d.victim k * 128))

/-- Must a miss wait for a transaction entry or a window (R239, R245)? A write of a whole block needs no read. -/
def Dev.missWaits (d : Dev) (k : Nat) (needsRead : Bool) : Bool :=
  (needsRead && !(d.line k).has k && (d.stackBusy k || d.trxFull k)) || d.allocWaits k

/-- Must an access to this HBM block wait: a first-touch copy of its page runs (R353), or it misses and must wait? -/
def Dev.hbmWaits (d : Dev) (pa : Nat) (needsRead : Bool) : Bool :=
  d.sqrCopy.contains (pa / 0x10000) || d.missWaits (d.hbmKey pa) needsRead

/-- A cycle in which a slice's miss waits for an entry or a window, counted once (R248). -/
def Dev.sliceWait (d : Dev) (s : Nat) : Dev :=
  if d.sccCnt.getD s 0 = d.cycle + 1 then d
  else ({ d with sccCnt := d.sccCnt.put s (d.cycle + 1) } : Dev).inc (aScc s 0x128)

/-- An access to HBM waits: counted at its home slice, but for a first-touch copy's wait (R248, R353). -/
def Dev.sliceHeld (d : Dev) (pa : Nat) : Dev :=
  if d.sqrCopy.contains (pa / 0x10000) then d else d.sliceWait (keySlice (d.hbmKey pa))

/-- A block put into the line of a storage address in its home slice, which makes room for the line. -/
def Dev.putBlock (d : Dev) (line k : Nat) (data : List Byte) (p dirty : Bool) : Dev :=
  let d1 := d.makeRoom line
  { d1 with cache := d1.cache.put (line / 128) ((d1.line line).set k data p dirty) }

/-- Fill one block of a line from HBM where it is not valid. -/
def Dev.fillBlock (d : Dev) (k pa h : Nat) : Dev :=
  let b := k / 128 * 128
  if (d.line (b + h)).has (b + h) then d
  else
    let (d1, data, p) := d.hbmBlock (b + h) (pa / 128 * 128 + h)
    d1.putBlock k (b + h) data p false

/-- Fill a line's blocks that are not valid from HBM (one 128-byte line read, R239). -/
def Dev.fill (d : Dev) (k pa : Nat) : Dev := (d.fillBlock k pa 0).fillBlock k pa 64

/-- Read of one 64-byte block through its home slice: the data, its poison, and whether the target did not
perform it (a held stack, R226). -/
def Dev.hbmRead (d : Dev) (pa : Nat) : Dev × List Byte × Bool × Bool :=
  let k := d.hbmKey pa
  let i := keyStack k
  if (d.line k).has k then
    let d1 := d.inc (aScc (keySlice k) 0x100)
    let (data, p) := (d.line k).get k
    ((if p then (d1.inc (aScc (keySlice k) 0x118)).raise (aScc (keySlice k) 0) 3 else d1), data, p, false)
  else if (d.stack i).held then
    (((d.inc (aHmc i 0x108)).inc (aHmc i 0x10C)).raise (aHmc i 0) 2, List.replicate 64 0, true, true)
  else
    let d1 := ((d.inc (aScc (keySlice k) 0x104)).trxTake k).fill k pa
    let (data, p) := (d1.line k).get k
    ((if p then (d1.inc (aScc (keySlice k) 0x118)).raise (aScc (keySlice k) 0) 3 else d1), data, p, false)

/-- The block that an access has read is changed in its line: the same access, so no further hit (R248). -/
def Dev.hbmSet (d : Dev) (pa : Nat) (data : List Byte) (p : Bool) : Dev := d.putBlock (d.hbmKey pa) (d.hbmKey pa) data p true

/-- Write of one whole 64-byte block at its home slice, past Squirrel (R237, R226). -/
def Dev.hbmPut (d : Dev) (pa : Nat) (data : List Byte) (p : Bool) : Dev :=
  let k := d.hbmKey pa
  let i := keyStack k
  if (d.stack i).held ∧ (d.line k).has k = false then d.inc (aHmc i 0x108)
  else (d.inc (aScc (keySlice k) (if (d.line k).has k then 0x100 else 0x104))).hbmSet pa data p

/-- Write of part of a block at its home slice; the rest of the block keeps its bytes and its poison. -/
def Dev.hbmPutPart (d : Dev) (pa : Nat) (data : List Byte) (p : Bool) : Dev :=
  if data.length = 64 ∧ pa % 64 = 0 then d.hbmPut pa data p
  else
    let (d1, old, bad, nak) := d.hbmRead (pa / 64 * 64)
    if nak then d1
    else d1.hbmSet (pa / 64 * 64) (old.take (pa % 64) ++ data ++ old.drop (pa % 64 + data.length)) (bad || p)

/-! ## Host memory -/

/-- n bytes of host memory, and whether one of their 64-byte blocks is poisoned. -/
def Dev.hostRead (d : Dev) (a n : Nat) : List Byte × Bool :=
  (cellsAt d.hostMem a n, (List.range (blocksIn a n)).any (fun i => d.hostPoison.contains (a / 64 + i)))

/-- A posted write to host memory (R364). -/
def Dev.hostWrite (d : Dev) (a : Nat) (data : List Byte) : Dev := { d with hostMem := cellsPut d.hostMem a data }

end Sys2Proof.Machine
end

