-- ==== Sys2Proof/Machine/Access.lean ====
section
/-! DEFINITION. Accesses to device physical memory by any agent: targets (R210, R227), sinking by routers
(R29, R30), writes held by Squirrel's first touch (R353, R356), atomics and reductions (R241–R243), the Owl's
event ring (R349). -/

namespace Sys2Proof.Machine

/-! ## Bytes without side effects -/

/-- One byte of HBM as its home slice would serve it now. -/
def Dev.peekHbm (d : Dev) (pa : Nat) : Byte :=
  let k := d.hbmKey pa
  if (d.line k).has k then ((d.line k).get k).1.getD (k % 64) 0 else cellAt d.mem k

/-- One byte of device memory, zero where there is none. -/
def Dev.peek1 (d : Dev) (pa : Nat) : Byte :=
  if pa < hbmEnd then d.peekHbm pa else cellAt d.mem pa

/-- n bytes of device memory. -/
def Dev.peek (d : Dev) (pa n : Nat) : List Byte := (List.range n).map (fun i => d.peek1 (pa + i))

/-- Is the 64-byte block of an address poisoned, as its home slice or core memory holds it? -/
def Dev.peekPoison (d : Dev) (pa : Nat) : Bool :=
  if pa < hbmEnd then
    let k := d.hbmKey pa
    if (d.line k).has k then ((d.line k).get k).2 else d.poison.contains (k / 64)
  else d.poison.contains (pa / 64)

/-- Is any 64-byte block of a range poisoned? -/
def Dev.peekPoisonN (d : Dev) (pa n : Nat) : Bool :=
  (List.range (blocksIn pa n)).any (fun i => d.peekPoison (pa / 64 * 64 + 64 * i))

/-! ## The Owl's event ring (R349) -/

/-- Write bytes to device memory past Squirrel, by block. -/
def Dev.rawWrite (d : Dev) (pa : Nat) (data : List Byte) : Dev :=
  if pa < hbmEnd then d.hbmPutPart pa data false
  else match cmemOf pa with
    | some (c, off) => d.cmemPart c off data false
    | none => d

/-- Entries of the event ring. -/
def Dev.owlSize (d : Dev) : Nat := 2 ^ d.fld (aOwl 0x120) 4 0

/-- What an event record names (R349). -/
structure OwlEvent where
  kind : Nat
  outcome : Nat := 0
  code : Nat := 0
  job : Nat := 0
  phys : Nat := 0x1FF
  pu : Nat := 0xF
  group : Nat := 0
  lrow : Nat := 0
  half : Nat := 0
  slot : Nat := 0
  plane : Nat := 0
  deriving DecidableEq, Repr

/-- The record's 128 bits. -/
def OwlEvent.word (e : OwlEvent) (time : Nat) (phase : Bool) (score : Nat) : Nat :=
  score % 256 + e.code % 256 * 2 ^ 16 + e.outcome % 8 * 2 ^ 24 + e.kind % 16 * 2 ^ 27 + b2n phase * 2 ^ 31
  + e.pu % 16 * 2 ^ 43 + e.phys % 512 * 2 ^ 47 + e.job % 64 * 2 ^ 56 + e.plane % 4 * 2 ^ 62 + e.slot % 8 * 2 ^ 64
  + e.half % 2 * 2 ^ 67 + e.lrow % 256 * 2 ^ 68 + e.group % 2 ^ 20 * 2 ^ 76 + time % 2 ^ 32 * 2 ^ 96

/-- The score; 0 while the monitor is disabled (R347, OWL_CFG). -/
def Dev.owlScore (d : Dev) : Nat := if d.bit (aOwl 0x100) 31 then d.owl.score else 0

/-- The Owl writes one event record, or drops it and sets LOG_OVF (R349). -/
def Dev.owlRecord (d : Dev) (e : OwlEvent) : Dev :=
  let n := d.owlSize
  if n ≤ d.owl.idx - d.owl.ahead then d.raise (aOwl 0) 2
  else
    let d1 := d.rawWrite (d.addr48 (aOwl 0x118) (aOwl 0x11C) 12 + 16 * (d.owl.idx % n))
      (bytesLE 16 (e.word d.tick (d.owl.idx / n % 2 == 0) d.owlScore))
    { d1 with owl := { d1.owl with idx := d1.owl.idx + 1 } }

/-! ## Squirrel's first touch (R350, R353, R356) -/

/-- A registration table entry (R350). -/
structure SqrEntry where
  i : Nat
  addr : Nat
  valid : Bool
  job : Nat
  req : Nat
  method : Nat
  pages : Nat
  mrank : Nat
  maddr : Nat
  paddr : Nat
  touched : Nat
  deriving DecidableEq, Repr

/-- Entry i of the registration table as memory holds it. -/
def Dev.sqrEntry (d : Dev) (i : Nat) : SqrEntry :=
  let w := ofBytesLE (d.peek (d.addr48 (aSqr 0x104) (aSqr 0x108) 12 + 32 * i) 32)
  ⟨i, bitsN w 47 16 * 0x10000, bitN w 48, bitsN w 67 62, bitsN w 69 68, bitsN w 71 70, bitsN w 95 72, bitsN w 111 96,
    bitsN w 159 112, bitsN w 207 160, bitsN w 255 232⟩

/-- The valid entries, while Squirrel is enabled. -/
def Dev.sqrEntries (d : Dev) : List SqrEntry :=
  if d.bit (aSqr 0x100) 31 then
    ((List.range (min 4096 (d.fld (aSqr 0x108) 28 16))).map d.sqrEntry).filter (fun e => e.valid)
  else []

/-- The entry that holds an HBM address. -/
def Dev.sqrFind (d : Dev) (pa : Nat) : Option SqrEntry :=
  d.sqrEntries.find? (fun e => decide (e.addr ≤ pa ∧ pa < e.addr + 0x10000 * e.pages))

/-- A job's snapshot record. -/
def Dev.sqrJob (d : Dev) (n : Nat) : SqrJob := d.sqrJobs.getD n {}

/-- A job's snapshot record replaced. -/
def Dev.setSqrJob (d : Dev) (n : Nat) (j : SqrJob) : Dev := { d with sqrJobs := d.sqrJobs.store {} n j }

/-- A page's record. -/
def Dev.sqrPage (d : Dev) (pg : Nat) : SqrPage := d.sqrPages.getD pg {}

/-- A page's record replaced. -/
def Dev.setSqrPage (d : Dev) (pg : Nat) (p : SqrPage) : Dev := { d with sqrPages := d.sqrPages.store {} pg p }

/-- Step control of a job (R325, R352). -/
def Dev.stepEn (d : Dev) (n : Nat) : Bool := d.bit (aStepJ n 4) 31

/-- The lowest free stage page. -/
def Dev.freeStage (d : Dev) : Option Nat :=
  (List.range (d.fld (aSqr 0x11C) 23 0)).find? (fun k => !d.sqrStage.contains k)

/-- Die whose slices are home to a 64 KiB page: the page lies in one pseudo-channel group of one die (R224, R235). -/
def Dev.pageDie (d : Dev) (pg : Nat) : Nat := keySlice (d.hbmKey (0x10000 * pg)) / 16

/-- Bytes of a page's copy counted in the budget of its die (R354). -/
def Dev.sqrCharge (d : Dev) (t : Tbl Nat) (pg : Nat) : Tbl Nat := t.store 0 (d.pageDie pg) (t.getD (d.pageDie pg) 0 + 0x10000)

/-- Must a write to this HBM address be held: its page is CLEAN, registered and protected (R353)? Gives
the job. The protection that LOST ends returns at the commit of its base generation, unless a copy has failed again
(R356). -/
def Dev.sqrProtects (d : Dev) (pa : Nat) : Option Nat :=
  match d.sqrFind pa with
  | none => none
  | some e =>
    let j := d.sqrJob e.job
    if d.stepEn e.job ∧ (j.lost = false ∨ (j.base ∧ j.again = false ∧ (j.st = .committed ∨ j.st = .merging)))
        ∧ (d.sqrPage (pa / 0x10000)).touched = false then some e.job else none

/-- Hold a write or reduction for a first-touch copy when its page needs one (R353, R356); `none` when the
access goes ahead at once. -/
def Dev.sqrHold (d : Dev) (w : HeldWrite) : Dev × Bool :=
  let pg := w.addr / 0x10000
  if d.sqrCopy.contains pg then ({ d with sqrHeld := d.sqrHeld ++ [w] }, true)
  else match d.sqrProtects w.addr with
    | none => (d, false)
    | some n =>
      match d.freeStage with
      | some k =>
        ({ (d.setSqrPage pg { (d.sqrPage pg) with x := some k }) with
            sqrCopy := d.sqrCopy ++ [pg], sqrStage := setIns d.sqrStage k, sqrHeld := d.sqrHeld ++ [w],
            sqrUsed := d.sqrCharge d.sqrUsed pg, sqrFt := d.sqrCharge d.sqrFt pg }, true)
      | none =>
        (((d.setSqrJob n { (d.sqrJob n) with lost := true, again := (d.sqrJob n).lost }).owlRecord { kind := 5, job := n }).raise
          (aSqr 0) 0, false)

/-- A write of up to 64 bytes within one block of HBM, by any agent. -/
def Dev.hbmWrite (d : Dev) (pa : Nat) (data : List Byte) (p : Bool) : Dev :=
  let (d1, held) := d.sqrHold { addr := pa, data := data, poison := p }
  if held then d1 else d1.hbmPutPart pa data p

/-! ## Atomics and reductions (R241–R243) -/

/-- New value of an atomic (R241): code, width in bits, old value, operand, compare value. -/
def atomicNew (code w old a cmp : Nat) : Nat :=
  match code with
  | 0x00 => (addF32 (BitVec.ofNat 32 old) (BitVec.ofNat 32 a)).toNat
  | 0x01 | 0x02 => (old + a) % 2 ^ w
  | 0x03 | 0x07 => if signedN a w < signedN old w then a else old
  | 0x04 | 0x08 => if signedN old w < signedN a w then a else old
  | 0x05 | 0x09 => min old a
  | 0x06 | 0x0A => max old a
  | 0x0B | 0x0E => old &&& a
  | 0x0C | 0x0F => old ||| a
  | 0x0D | 0x10 => old ^^^ a
  | 0x11 | 0x12 => a
  | _ => if old = cmp then a else old

/-- Operand width in bytes of an atomic code; `none` for a reserved code (R241). -/
def atomicWidth (code : Nat) : Option Nat :=
  if code ∈ [0x00, 0x01, 0x03, 0x04, 0x05, 0x06, 0x0B, 0x0C, 0x0D, 0x11, 0x13] then some 4
  else if code ≤ 0x14 then some 8 else none

/-- Element width in bytes of a reduction op (R242). -/
def redWidth (op : Nat) : Nat := if op = 2 then 8 else 4

/-- New value of one element under a reduction op (R242). -/
def redNew (op old v : Nat) : Nat :=
  match op with
  | 0 => (addF32 (BitVec.ofNat 32 old) (BitVec.ofNat 32 v)).toNat
  | 1 => (old + v) % 2 ^ 32
  | 2 => (old + v) % 2 ^ 64
  | 3 => (toF32 ((f32 (BitVec.ofNat 32 old)).maxF (f32 (BitVec.ofNat 32 v)))).toNat
  | 4 => (toF32 ((f32 (BitVec.ofNat 32 old)).minF (f32 (BitVec.ofNat 32 v)))).toNat
  | 5 => old &&& v
  | 6 => old ||| v
  | _ => old ^^^ v

/-- Elementwise reduction of bytes (R242). -/
def redBytes (op : Nat) (old v : List Byte) : List Byte :=
  ((chunksOf (redWidth op) old).zip (chunksOf (redWidth op) v)).flatMap
    (fun p => bytesLE (redWidth op) (redNew op (ofBytesLE p.1) (ofBytesLE p.2)))

/-- Base of the posted-reduction window (R242). -/
def redBase : Nat := 0x400000000000

/-- Op and HBM address of an address in the window's spans (R227, R242). -/
def redOf (pa : Nat) : Option (Nat × Nat) :=
  if redBase ≤ pa ∧ pa < redBase + 8 * 2 ^ 41 then some ((pa - redBase) / 2 ^ 41, (pa - redBase) % 2 ^ 41) else none

/-- A slice refuses an atomic, a reduction or a read of the window (R243). -/
def Dev.badOp (d : Dev) (scc : Nat) : Dev := (d.inc (aScc scc 0x114)).raise (aScc scc 0) 2

/-- The slice that refuses an access: the home slice, or slice 0 of the requester's die when the address
has no home (R243). -/
def Dev.refuser (d : Dev) (die pa : Nat) : Nat := if pa < hbmEnd then keySlice (d.hbmKey pa) else 16 * die

/-- Must a reduction at an HBM address wait at its home slice? One of a page whose first-touch copy runs is taken and held there
(R242, R245, R353). -/
def Dev.redWaits (d : Dev) (a : Nat) : Bool := decide (a < hbmEnd) && d.hbmWaits a true && !d.sqrCopy.contains (a / 0x10000)

/-- A reduction within one 64-byte block, past Squirrel (R242, R243). -/
def Dev.redPut (d : Dev) (op pa : Nat) (data : List Byte) (p : Bool) : Dev :=
  let (d1, old, bad, nak) := d.hbmRead (pa / 64 * 64)
  if nak then d1
  else
    let cur := (old.drop (pa % 64)).take data.length
    (d1.hbmSet (pa / 64 * 64) (old.take (pa % 64) ++ redBytes op cur data ++ old.drop (pa % 64 + data.length)) (bad || p)).inc
      (aScc (keySlice (d.hbmKey pa)) 0x110) (data.length / redWidth op)

/-! ## Core memory over the mesh (R29, R30) -/

/-- The job ID that a core's packets carry; a core outside every job has none that a router delivers (R29). -/
def Core.agent (k : Core) : Option Nat := some (k.job.getD 64)

/-- Does a held stack answer an access to an HBM address: its home slice does not have the block (R226)? -/
def Dev.nakked (d : Dev) (pa : Nat) : Bool := (d.stack (keyStack (d.hbmKey pa))).held && !(d.line (d.hbmKey pa)).has (d.hbmKey pa)

/-- Does the router of core c deliver a packet of a job (`none`: a management packet) (R29)? -/
def Dev.delivers (d : Dev) (c : Nat) (job : Option Nat) : Bool :=
  match job with
  | none => true
  | some j => !(d.fenced c) && !(d.core c).inReset && (d.core c).clearing.isNone && (d.core c).job == some j

/-- A packet that carries poison is counted where the routers of a die forward it (R48). -/
def Dev.poisonSent (d : Dev) (die : Nat) (p : Bool) : Dev := if p then d.inc (aNoc die 0x114) else d

/-- A sunk packet is counted (R29). -/
def Dev.sink (d : Dev) (c : Nat) : Dev := (d.inc (aNoc (dieOf c) 0x108)).raise (aNoc (dieOf c) 0) 2

/-- What an access found: the block's bytes, its poison, and whether the target did not perform it. -/
structure Got where
  data : List Byte
  poison : Bool
  refused : Bool
  deriving DecidableEq, Repr

/-- The answer of an access that no target performs (R30, R227); its data bytes, of which the spec says only that they are
poisoned, are zeros (DESIGN CHOICE, log entry 118). -/
def Got.none : Got := ⟨List.replicate 64 0, true, true⟩

/-- What makes an access of an agent outside a core wait at its target: at core memory its slots, bank or the cycle's grants; at
a home slice a miss that must wait, and a read of a page whose first-touch copy runs (R200, R208, R245, R353). -/
def Dev.devWait (d : Dev) (job : Option Nat) (a n : Nat) (read : Bool) : Option Nat :=
  match cmemOf a with
  | some (c, off) => if d.delivers c job then d.cmemWait c 2 n off else none
  | none => match redOf a with
    | some (_, x) => if d.redWaits x then some 3 else none
    | none => if a < hbmEnd ∧ (if read then d.hbmWaits a true else d.missWaits (d.hbmKey a) (decide (n ≠ 1))) then some 3 else none

/-- The access waits: counted where it happens (R200, R208, R248). -/
def Dev.devHeld (d : Dev) (a w : Nat) : Dev :=
  match cmemOf a with
  | some (c, _) => d.cmemHeld c 2 w
  | none => d.sliceHeld ((redOf a).elim a (fun p => p.2))

/-- The access is granted: REMOTE slots and the bank at core memory that takes it. -/
def Dev.remoteGrant (d : Dev) (job : Option Nat) (a n : Nat) : Dev :=
  match cmemOf a with
  | some (c, off) => if d.delivers c job then d.cmemGrant c 2 n off else d
  | none => d

/-- An access that enters on the other die's slice of the same index is counted there (R235). -/
def Dev.crossDie (d : Dev) (die pa : Nat) : Dev :=
  let s := keySlice (d.hbmKey pa)
  if s / 16 = die then d else d.inc (aScc (16 * die + s % 16) 0x124)

/-- Read of one 64-byte block of device memory at its target, by an agent on a die with a job. -/
def Dev.targetRead (d : Dev) (die : Nat) (job : Option Nat) (pa : Nat) : Dev × Got :=
  if pa < hbmEnd then
    let (d1, data, p, nak) := (d.crossDie die pa).hbmRead (pa / 64 * 64)
    (d1, ⟨data, p, nak⟩)
  else match cmemOf pa with
    | some (c, off) =>
      if d.delivers c job then
        let (d1, data, p) := d.cmemRead c off
        (d1, ⟨data, p, false⟩)
      else (d.sink c, Got.none)
    | none =>
      match redOf pa with
      | some (_, a) => (d.badOp (d.refuser die a), Got.none)
      | none => (d, Got.none)

/-- Read of one 64-byte block by an agent on a die with a job: a poisoned response that crosses the mesh is counted there (R48). -/
def Dev.devRead (d : Dev) (die : Nat) (job : Option Nat) (pa : Nat) : Dev × Got :=
  let (d1, g) := d.targetRead die job pa
  (d1.poisonSent die g.poison, g)

/-- Write of up to 64 bytes within one block of HBM or core memory; the Bool says the target performed it. A poisoned packet is
counted where it crosses the mesh (R48). -/
def Dev.devWrite (d0 : Dev) (die : Nat) (job : Option Nat) (pa : Nat) (data : List Byte) (p : Bool) : Dev × Bool :=
  let d := d0.poisonSent die p
  if pa < hbmEnd then
    ((d.crossDie die pa).hbmWrite pa data p, !d.nakked pa)
  else match cmemOf pa with
    | some (c, off) =>
      if d.delivers c job then
        ((if data.length = 64 ∧ off % 64 = 0 then d.cmemWrite c off data p else d.cmemPart c off data p), true)
      else (d.sink c, false)
    | none => (d, false)

/-- Bytes cut at 64-byte block boundaries: address and bytes of each piece. -/
def cutBlocks (pa : Nat) (data : List Byte) : List (Nat × List Byte) :=
  let h := 64 - pa % 64
  if data.length ≤ h then (if data.isEmpty then [] else [(pa, data)])
  else (pa, data.take h) :: (chunksOf 64 (data.drop h)).zipIdx.map (fun p => (pa + h + 64 * p.2, p.1))

/-- A run of bytes written to device memory, block by block. -/
def Dev.devWriteN (d : Dev) (die : Nat) (job : Option Nat) (pa : Nat) (data : List Byte) (p : Bool) : Dev :=
  (cutBlocks pa data).foldl (fun d q => (d.devWrite die job q.1 q.2 p).1) d

/-- n bytes read from device memory, with the poison and refusal of any of their blocks. -/
def Dev.devReadN (d : Dev) (die : Nat) (job : Option Nat) (pa n : Nat) : Dev × Got :=
  let r := (List.range (blocksIn pa n)).foldl (fun (acc : Dev × Got) i =>
      let (d1, g) := acc.1.devRead die job (pa / 64 * 64 + 64 * i)
      (d1, ⟨acc.2.data ++ g.data, acc.2.poison || g.poison, acc.2.refused || g.refused⟩)) (d, ⟨[], false, false⟩)
  (r.1, { r.2 with data := (r.2.data.drop (pa % 64)).take n })

end Sys2Proof.Machine
end

