-- ==== Sys2Proof/Machine/CmdOps.lean ====
section
/-! DEFINITION. Operations on command streams that other blocks need: the journal (R383, R384), completion
records (R375, R376), what a job stop does to the job's RUNs (R392). -/

namespace Sys2Proof.Machine

/-- A stream's record. -/
def Dev.strm (d : Dev) (s : Nat) : CmdStream := d.cb.streams.getD s {}

/-- A stream's record replaced. -/
def Dev.setStrm (d : Dev) (s : Nat) (r : CmdStream) : Dev := { d with cb := { d.cb with streams := d.cb.streams.store {} s r } }

/-- The number of a command state (R375). -/
def CmdState.code : CmdState → Nat
  | .queued => 0 | .running => 1 | .suspending => 2 | .suspended => 3 | .cancelling => 4 | .done => 5
  | .cancelled => 6 | .failed => 7

/-- DONE, CANCELLED or FAILED. -/
def CmdState.terminal (st : CmdState) : Bool := decide (5 ≤ st.code)

/-- Fields of a command (R372). -/
def cmdOp (c : Nat) : Nat := bitsN c 7 0
def cmdArg (c i : Nat) : Nat := bitsN c (255 + 64 * i) (192 + 64 * i)
def cmdStream (c : Nat) : Nat := bitsN c 31 12
def cmdSeq (c : Nat) : Nat := bitsN c 63 32
def cmdCpl (c : Nat) : Nat := bitsN c 127 70 * 64
def cmdCplHost (c : Nat) : Bool := bitN c 64

/-- The journal entry of a stream (R383); zero while it is unbound (R386). -/
def CmdStream.entry (r : CmdStream) : Nat :=
  if r.job.isNone then 0 else
  let base := r.cmd - bitsN r.cmd 63 12 * 2 ^ 12 - bitsN r.cmd 178 176 * 2 ^ 176
  base + r.status % 256 * 2 ^ 12 + 2 ^ 20 * r.st.code + (r.job.getD 0) % 64 * 2 ^ 24 + b2n r.released * 2 ^ 30
    + b2n r.job.isSome * 2 ^ 31 + r.last % 2 ^ 32 * 2 ^ 32
    + b2n r.pendCancel * 2 ^ 176 + b2n r.pendResume * 2 ^ 177 + b2n r.image * 2 ^ 178

/-- A stream's record from its journal entry (R383). -/
def CmdStream.ofEntry (w : Nat) : CmdStream :=
  { job := if bitN w 31 then some (bitsN w 29 24) else none
    last := bitsN w 63 32
    cmd := w
    st := [CmdState.queued, .running, .suspending, .suspended, .cancelling, .done, .cancelled, .failed].getD (bitsN w 23 20) .done
    status := bitsN w 19 12
    released := bitN w 30 || !bitN w 31
    image := bitN w 178
    pendResume := bitN w 177
    pendCancel := bitN w 176 }

/-- Base of journal copy i (R383). -/
def Dev.jrnBase (d : Dev) (i : Nat) : Nat := d.addr48 (aCmd (0x108 + 8 * i)) (aCmd (0x10C + 8 * i)) 26

/-- Is journal copy i in use and readable (R387)? -/
def Dev.jrnOk (d : Dev) (i : Nat) : Bool := d.bit (aCmd 0x118) i

/-- A write-through of one block: the home slice and the stack both take it (R384). -/
def Dev.writeThrough (d : Dev) (pa : Nat) (data : List Byte) : Dev :=
  (d.hbmPut pa data false).hbmStore (d.hbmKey pa) data false

/-- A copy found unusable (R387). -/
def Dev.jrnDegrade (d : Dev) (i : Nat) : Dev := (d.putB (aCmd 0x118) i false).raise (aCmd 0) 2

/-- A stream's journal entry written to both copies (R384); a copy on a held stack is lost (R387). -/
def Dev.journal (d : Dev) (s : Nat) : Dev :=
  [0, 1].foldl (fun d i =>
    if d.jrnOk i then
      let pa := d.jrnBase i + 64 * s
      if (d.stack (keyStack (d.hbmKey pa))).held then d.jrnDegrade i
      else d.writeThrough pa (bytesLE 64 (d.strm s).entry)
    else d) d

/-- Write of a word of a completion record: in host memory lost when the host interface refuses it (R366,
R374), else stored. -/
def Dev.record (d : Dev) (host : Bool) (a : Nat) (data : List Byte) : Dev :=
  if host then (if d.cb.up && d.cb.bme then d.hostWrite a data else d)
  else (cutBlocks a data).foldl (fun d p => (d.crossDie 0 p.1).hbmWrite p.1 p.2 false) d

/-- ACK word (R375). -/
def ackWord (seq reason st code : Nat) : Nat := seq % 2 ^ 32 * 2 ^ 32 + reason % 16 * 2 ^ 28 + st % 16 * 2 ^ 24 + code % 256 * 2 ^ 16

/-- DONE word (R375). -/
def doneWord (seq : Nat) (dup : Bool) (st status : Nat) : Nat :=
  seq % 2 ^ 32 * 2 ^ 32 + b2n dup * 2 ^ 31 + st % 16 * 2 ^ 24 + status % 256 * 2 ^ 16

/-- The ACK word of a command written to its record (R376). -/
def Dev.ack (d : Dev) (c reason st code : Nat) : Dev :=
  d.record (cmdCplHost c) (cmdCpl c + 0x30) (bytesLE 8 (ackWord (cmdSeq c) reason st code))

/-- The DONE word of a command written to its record (R376). -/
def Dev.doneRec (d : Dev) (c : Nat) (dup : Bool) (st status : Nat) : Dev :=
  d.record (cmdCplHost c) (cmdCpl c + 0x38) (bytesLE 8 (doneWord (cmdSeq c) dup st status))

/-- The calendar entry that governs a stream: the lowest-numbered enabled one that names it (R397). -/
def Dev.calOf (d : Dev) (s : Nat) : Option Nat :=
  (List.range 64).find? (fun e => d.bit (aCal e 0) 31 && d.fld (aCal e 0) 19 0 == s)

/-- A terminal command's slot is closed and LAST recorded (R398). -/
def Dev.calClose (d : Dev) (s : Nat) : Dev :=
  match (d.strm s).slotT, d.calOf s with
  | some t, some e => d.setReg (aCal e 0x1C) (BitVec.ofNat 32 ((d.tick - t) % 2 ^ 24))
  | _, _ => d

/-- RESULT words of a command's record (R375). -/
def Dev.results (_ : Dev) (r : CmdStream) (res0 : Nat) : List Nat :=
  if cmdOp r.cmd = 1 then [r.startT, r.endT, r.phys + r.restarts % 256 * 2 ^ 16, 0, 0, 0] else [res0, 0, 0, 0, 0, 0]

/-- Commands that wait for a target note its outcome when it becomes terminal (R375). -/
def Dev.noteOutcome (d : Dev) (s : Nat) (r : CmdStream) : Dev :=
  { d with cb := { d.cb with streams := d.cb.streams.map (fun p =>
      if p.2.st == .queued && decide (2 ≤ cmdOp p.2.cmd) && cmdArg p.2.cmd 0 % 2 ^ 20 == s && cmdArg p.2.cmd 1 % 2 ^ 32 == r.last && p.2.out.isNone
      then (p.1, { p.2 with out := some (r.st.code, r.status) }) else p) } }

/-- A stream's command reaches a terminal state (R375, R376, R379, R384): journal, RESULT, DONE word, message.
Control commands, NOP and WAIT release themselves. `res0` is RES0 of the opcodes other than RUN. -/
def Dev.finish (d : Dev) (s : Nat) (st : CmdState) (status phys res0 : Nat) : Dev :=
  let r0 := d.strm s
  let r := { r0 with st := st, status := status, endT := d.tick, phys := phys, released := r0.released || cmdOp r0.cmd != 1 }
  let d1 := ((d.setStrm s r).noteOutcome s r).journal s
  let d2 := d1.record (cmdCplHost r.cmd) (cmdCpl r.cmd) ((d1.results r res0).flatMap (bytesLE 8))
  let d3 := d2.doneRec r.cmd false st.code status
  let d4 := if bitN r.cmd 11 then d3.sendMsix (bitsN r.cmd 138 128) else d3
  let d5 := (d4.incWrap (aCmd 0x124)).calClose s
  let j := r.job.getD 0
  d5.setF (aCmdJ j 4) 23 0 (d5.fld (aCmdJ j 4) 23 0 - 1)

/-- Streams bound to a job whose last command is in a state that a test picks. -/
def Dev.jobStreams (d : Dev) (n : Nat) (f : CmdStream → Bool) : List Nat :=
  (d.cb.streams.filter (fun p => p.2.job == some n && f p.2)).map (fun p => p.1)

/-- A job stop fails the job's RUNNING commands with its code (R392). -/
def Dev.cmdJobStop (d : Dev) (n code phys : Nat) : Dev :=
  (d.jobStreams n (fun r => r.st == .running)).foldl (fun d s => d.finish s .failed code phys 0) d

end Sys2Proof.Machine
end

