-- ==== Sys2Proof/Machine/Stop.lean ====
section
/-! DEFINITION. Fault records (R144, R197), flags (R180–R182), disabling a DMA channel (R267), job stops
(R344), core fences asked for (R342, R343). -/

namespace Sys2Proof.Machine

/-! ## Fault record (R197) -/

/-- The record of a fault: the first stays until VALID is cleared, a later one sets MORE; of those of one cycle the one of the
lowest code stays (R15). -/
def Dev.faultRec (d : Dev) (c : Nat) (exec : Bool) (unit code pc lo hi : Nat) : Dev :=
  let held := d.bit (aCctl c 0x140) 31
  let lower := flag (d.eventBits (aCctl c 0x140)) 31 && decide (code < d.fld (aCctl c 0x140) 7 0)
  if held && !lower then (d.event (aCctl c 0x140) 29).putB (aCctl c 0x140) 29 true
  else
    ((((d.event (aCctl c 0x140) 31).setReg (aCctl c 0x140) (BitVec.ofNat 32 (0x80000000 + b2n exec * 2 ^ 30 + b2n held * 2 ^ 29 + 2 ^ 24 * unit + code))).setReg
      (aCctl c 0x144) (BitVec.ofNat 32 (pc % 2 ^ 20))).setReg (aCctl c 0x148) (BitVec.ofNat 32 lo)).setReg
      (aCctl c 0x14C) (BitVec.ofNat 32 hi)

/-- A bus error of a transfer (R171): UE_MEM with the address of the first block it affects. -/
def Dev.busError (d : Dev) (c : Nat) (unit pc pa : Nat) : Dev :=
  (d.faultRec c false unit 0x09 pc (pa % 2 ^ 32) (bitsN pa 47 32)).raise (aCctl c 0) 2

/-! ## Flags (R180–R182) -/

/-- The core's flag bookkeeping moved to this cycle. -/
def Core.flagSync (k : Core) (cyc : Nat) : Core :=
  if k.flagCyc = cyc then k else { k with flagCyc := cyc, flagPre := k.flags, flagSet := 0, flagTaken := 0 }

/-- Flags set (R180); a set of a flag already set is a lost handshake (R181). -/
def Dev.setFlags (d : Dev) (c m : Nat) : Dev :=
  let k := (d.core c).flagSync d.cycle
  let lost := ((List.range 16).filter (fun i => bitN (m &&& k.flags) i)).length
  let d1 := d.setCore c { k with flags := (k.flags ||| m) % 65536, flagSet := k.flagSet ||| m,
                                 progress := k.progress || decide ((k.flags ||| m) % 65536 ≠ k.flags) }
  if lost = 0 then d1 else (d1.inc (aStrm c 0x150) lost).raise (aStrm c 0) 0

/-- Flags cleared; one set in the same cycle ends set (R167, R182). -/
def Dev.clrFlags (d : Dev) (c m : Nat) : Dev :=
  let k := (d.core c).flagSync d.cycle
  let n := k.flags &&& (0xFFFF ^^^ (m &&& (0xFFFF ^^^ k.flagSet)) % 65536)
  d.setCore c { k with flags := n, progress := k.progress || decide (n ≠ k.flags) }

/-! ## Operations and slots a stop discards -/

/-- Every slot an operation writes gets back its entry copy; SHIFT stays set once a replay B has run (R84, R113, R344). -/
def Core.restoreOp (k : Core) (o : Op) : Core :=
  o.entry.foldl (fun k p => { k with slots := k.slots.store {} p.1 { p.2 with shift := p.2.shift || (k.slots.getD p.1 {}).shift } }) k

/-- The core's operations not retired are discarded, their slots restored; an open decision ends (R344). -/
def Core.dropOps (k : Core) : Core :=
  let k1 := k.flight.foldl Core.restoreOp k
  { k1 with issue := [], flight := [], dec := none, chainIn := [], chainOwed := [],
            edges := k1.edges.map (fun p => (p.1, { p.2 with held := none })) }

/-- A RUNNING stream becomes FAULTED by a precise fault (R189). -/
def Stream.fault (s : Stream) : Stream := if s.st = .running then { s with st := .faulted, wait := none } else s

/-- A RUNNING or HALTED stream becomes FAULTED (R189, R344). -/
def Stream.jobStop (s : Stream) : Stream :=
  if s.st = .running ∨ s.st = .halted then { s with st := .faulted, wait := none, halting := false } else s

/-- What a job stop does to one core of the job. -/
def Core.jobStop (k : Core) : Core := { k.dropOps with x := k.x.jobStop, a := k.a.jobStop }

/-! ## DMA channels disabled (R267) -/

/-- A channel's state. -/
def Dev.chan (d : Dev) (ch : Nat) : DmaChan := d.chans.getD ch {}

/-- A channel's state replaced. -/
def Dev.setChan (d : Dev) (ch : Nat) (k : DmaChan) : Dev := { d with chans := d.chans.store {} ch k }

/-- Start of each destination line of a descriptor (R255, R256). -/
def DmaDesc.dstLines (e : DmaDesc) : List Nat :=
  let w := ofBytesLE e.bytes
  (List.range (bitsN w 287 272 + 1)).map
    (fun (n : Nat) => (((bitsN w 127 64 : Nat) : Int) + (n : Int) * signedN (bitsN w 255 216) 40).toNat % 2 ^ 64)

/-- Bytes of one destination line. -/
def DmaDesc.dstLen (e : DmaDesc) : Nat := bitsN (ofBytesLE e.bytes) 215 192 + 1

/-- The destination bytes of a descriptor dropped in flight are not defined (R267): free values. A reduction's are those of
the HBM it reduces into; a refused descriptor has moved nothing (R257). -/
def Dev.freeDst (d : Dev) (ch : Nat) (e : DmaDesc) : Dev :=
  let host := bitN (ofBytesLE e.bytes) 289
  if e.reason = 3 then d
  else (e.dstLines.foldl (fun (d : Dev) a =>
    let bs := (List.range e.dstLen).map (fun i => Config.freeByte d.free i)
    (if host then d.hostWrite a bs
     else d.devWriteN (ch / 32) (some (d.fld (aDmaC ch 0) 29 24)) ((redOf a).elim a (fun p => p.2)) bs false).useFree) d)

/-- DISABLE of a channel (R267): its descriptors in progress are dropped with their destination bytes and
the channel's counters not defined, pending interrupts discarded. -/
def Dev.dmaDisable (d : Dev) (ch : Nat) : Dev :=
  let d1 := (d.chan ch).descs.foldl (fun d e => d.freeDst ch e) d
  let d2 := (d1.setReg (aDmaC ch 0x24) ((Config.freeValue d1.free).setWidth 32)).useFree
  let d3 := (d2.setReg (aDmaC ch 0x28) ((Config.freeValue d2.free).setWidth 32)).useFree
  d3.setChan ch { (d3.chan ch) with st := .disabled, descs := [], dbPend := false, pend := 0, fetch := d3.fld (aDmaC ch 0x14) 15 0 }

/-! ## Job stop (R344) -/

/-- Cores of a job. -/
def Dev.jobCores (d : Dev) (n : Nat) : List Nat := (d.cores.filter (fun p => p.2.job == some n)).map (fun p => p.1)

/-- The gate of a stopped job (R324): COLLECTING or REDUCING becomes FAILED with the stop's code. -/
def Dev.gateFail (d : Dev) (n code : Nat) : Dev :=
  let g := d.fld (aStepJ n 0x1C) 3 0
  if g = 1 ∨ g = 2 then ((d.setF (aStepJ n 0x1C) 3 0 5).setF (aStepJ n 0x1C) 23 16 code).raise (aStep 0) 0 else d

/-- DMA channels whose JOB is n, and that are not DISABLED. -/
def Dev.jobChans (d : Dev) (n : Nat) : List Nat :=
  (List.range 64).filter (fun ch => d.fld (aDmaC ch 0) 29 24 == n && decide ((d.chan ch).st ≠ .disabled))

/-- Every channel of a job is disabled (R268, R344). -/
def Dev.disableJob (d : Dev) (n : Nat) : Dev := (d.jobChans n).foldl (fun d ch => (d.putB (aDmaC ch 0) 1 true).dmaDisable ch) d

/-- A second cause of a job stop: it changes nothing (R344), but of the causes of one cycle the lowest code stays in
OWL_JOB_n_STAT, and in the gate that the stop failed (R15, R324). -/
def Dev.stopAgain (d : Dev) (n code phys : Nat) : Dev :=
  let a := aOwlJ (0x200 + 4 * n)
  if flag (d.eventBits a) 31 ∧ code % 256 < d.fld a 23 16 then
    let d1 := if d.fld (aStepJ n 0x1C) 3 0 = 5 ∧ d.fld (aStepJ n 0x1C) 23 16 = d.fld a 23 16 then d.setF (aStepJ n 0x1C) 23 16 code else d
    (d1.setF a 23 16 code).setF a 8 0 phys
  else d

/-- Stop of job n for a code, with the core where the cause arose (0x1FF none); `cmds`: its RUNs fail with it, which a
job reset's stop leaves to R396. -/
def Dev.jobStop (d : Dev) (n code phys : Nat) (cmds : Bool := true) : Dev :=
  if d.bit (aOwlJ (0x200 + 4 * n)) 31 then d.stopAgain n code phys
  else
    let d1 := (d.jobCores n).foldl (fun d c => d.onCore c Core.jobStop) d
    let d3 := (d1.disableJob n).putB (aFabJ n 0) 31 false
    let d4 := d3.gateFail n code
    let d5 := (d4.event (aOwlJ (0x200 + 4 * n)) 31).setReg (aOwlJ (0x200 + 4 * n))
      (BitVec.ofNat 32 (0x80000000 + code % 256 * 2 ^ 16 + phys % 512))
    (((if cmds then d5.cmdJobStop n code phys else d5)).owlRecord { kind := 1, code := code, job := n, phys := phys }).raise (aOwl 0) 3

/-- Stop of the job of a core (R345). -/
def Dev.coreJobStop (d : Dev) (c code : Nat) : Dev :=
  match (d.core c).job with
  | some n => d.jobStop n code c
  | none => d

/-! ## Faults of a stream (R144) -/

/-- A stream of a core. -/
def Core.stream (k : Core) (exec : Bool) : Stream := if exec then k.x else k.a

/-- A stream of a core replaced. -/
def Core.setStream (k : Core) (exec : Bool) (s : Stream) : Core := if exec then { k with x := s } else { k with a := s }

/-- A precise HAZARD fault of a stream: record, HAZARD in ERR_STAT, the stream FAULTED at its word, and the
stop of the core's job (R144, R345). -/
def Dev.preciseFault (d : Dev) (c : Nat) (exec : Bool) (unit : Nat) (arg : Nat) : Dev :=
  let s := (d.core c).stream exec
  let d1 := (d.faultRec c exec unit 0x03 s.pc arg 0).raise (aCctl c 0) 0
  (d1.onCore c (fun k => k.setStream exec { (k.stream exec) with st := .faulted, wait := none })).coreJobStop c 0x03

/-- Argument of a HAZARD record: reason, vector register, plane, slot (R197). -/
def hazArg (reason vreg plane slot : Nat) : Nat := 2 ^ 16 * reason + 2 ^ 8 * vreg + 2 ^ 4 * plane + slot

/-! ## The floor plan and fences asked for (R20, R24, R343) -/

/-- A clearing of a core's memory starts (R206). -/
def Dev.cmemClear (d : Dev) (c : Nat) : Dev := d.onCore c (fun k => { k with clearing := some (k.clearing.getD d.cycle) })

/-- A core's job membership is cleared, and with it its memory (R26, R206). -/
def Dev.leaveJob (d : Dev) (c : Nat) : Dev := (d.onCore c (fun k => { k with job := none })).cmemClear c

/-- Cores of the die row of a core, west to east (R3, R4). -/
def dieRow (c : Nat) : List Nat := (List.range 13).map (fun i => c / 13 * 13 + i)

/-- First logical ID of the die row of a core (R20). -/
def rowFirst (c : Nat) : Nat := c % 156 / 13 * 24 + c / 156 * 12

/-- STATE of a core's byte. -/
def Dev.setFp (d : Dev) (c st : Nat) : Dev := d.setF (aFp (0x110 + c / 4 * 4)) (8 * (c % 4) + 1) (8 * (c % 4)) st

/-- The half of a logical ID: VALID and PHYS_ID. -/
def Dev.logHalf (d : Dev) (l : Nat) : Nat := d.fld (aFp (0x250 + l / 2 * 4)) (16 * (l % 2) + 15) (16 * (l % 2))
def Dev.setLog (d : Dev) (l v : Nat) : Dev := d.setF (aFp (0x250 + l / 2 * 4)) (16 * (l % 2) + 15) (16 * (l % 2)) v

/-- Logical ID of a physical core. -/
def Dev.logOf (d : Dev) (c : Nat) : Option Nat :=
  ((List.range 12).map (fun k => rowFirst c + k)).find? (fun l => d.logHalf l == 0x8000 + c)

/-- Physical core of a logical ID. -/
def Dev.physOf (d : Dev) (l : Nat) : Option Nat := if 0x8000 ≤ d.logHalf l then some (d.logHalf l % 512) else none

/-- The logical IDs of a die row given to its active cores from west to east (R20). -/
def Dev.assignRow (d : Dev) (c : Nat) : Dev :=
  let act := (dieRow c).filter (fun x => d.fpState x == 0)
  (List.range 12).foldl (fun d k => d.setLog (rowFirst c + k) (match act[k]? with
    | some x => 0x8000 + x
    | none => 0)) d

/-- The die row once a core is fenced: its spare, if any, becomes active, and the logical IDs move (R24, R25). -/
def Dev.fenceRow (d : Dev) (c : Nat) : Dev :=
  let was := d.fpState c
  let d1 := d.setFp c 3
  let d2 := if was ≠ 0 then d1 else match (dieRow c).find? (fun x => d1.fpState x == 1) with
    | some s => d1.setFp s 0
    | none => d1
  d2.assignRow c

/-- Cores whose logical ID a fence changes, the fenced core among them when it had one (R24–R26). -/
def Dev.renumbered (d : Dev) (c : Nat) : List Nat :=
  let e := d.fenceRow c
  (dieRow c).filter (fun x => d.logOf x != e.logOf x)

/-- The membership bit of a core, by its logical ID, is cleared in every job (R395). -/
def Dev.clearMember (d : Dev) (c : Nat) : Dev :=
  match d.logOf c with
  | none => d
  | some l => (List.range 64).foldl (fun d n => if d.bit (aCmdJ n (8 + l / 32 * 4)) (l % 32) then d.putB (aCmdJ n (8 + l / 32 * 4)) (l % 32) false else d) d

/-- A fence of a core is asked for (R342, R343): the core is outside every job from now on. Where it would renumber no
core of another job it is to take effect at once; otherwise it waits for its epoch. -/
def Dev.askFence (d : Dev) (c : Nat) : Dev :=
  if d.fpState c = 3 ∨ d.fpState c = 2 ∨ d.fences.any (fun f => f.phys == c) then d
  else
    let j := (d.core c).job
    let due := (d.renumbered c).all (fun x => x == c || (d.core x).job.isNone || (d.core x).job == j)
    let d1 := if j.isSome then (d.clearMember c).leaveJob c else d
    { d1 with fences := d1.fences ++ [⟨c, j, due⟩] }

end Sys2Proof.Machine
end

