-- ==== Sys2Proof/Machine/Operands.lean ====
section
/-! DEFINITION. Operand forms of the instruction words (05 R142–R169): the fields of each slot, the operand
formats of a pair (R148), which encodings and combinations are invalid (R144, R149, R154), and edge integers
(02 R53–R57). -/

namespace Sys2Proof.Machine

/-! ## Matrix slot (R146, R147, R153) -/

def mOp (w : Nat) : Nat := bitsN w 127 124
def mPlane (w : Nat) : Nat := bitsN w 123 122
def mSlot (w : Nat) : Nat := bitsN w 121 119
def mOpen (w : Nat) : Bool := bitN w 118
def mK (w : Nat) : Nat := bitsN w 117 98 + 1
def mGsz (w : Nat) : Nat := bitsN w 97 96
def mFmt (w : Nat) : Nat := bitsN w 95 91
def mCell (w : Nat) : Nat := bitsN w 90 88
def mAq (w : Nat) : Nat := bitsN w 87 86
def mBsrc (w : Nat) : Nat := bitsN w 85 84
def mBq (w : Nat) : Nat := bitsN w 83 82
def mTbuf (w : Nat) : Bool := bitN w 81
def mRsrc (w : Nat) : Bool := bitN w 80
def mRq (w : Nat) : Nat := bitsN w 79 78
def mCsrc (w : Nat) : Nat := bitsN w 77 76
def mCbank (w : Nat) : Nat := bitsN w 75 74
def mCq (w : Nat) : Nat := bitsN w 73 72
def mPre (w : Nat) : Nat := bitsN w 71 70
def mPq (w : Nat) : Nat := bitsN w 69 68
def mPack (w : Nat) : Nat := bitsN w 67 65
def mTag (w : Nat) : Nat := bitsN w 64 59
def mRetfEn (w : Nat) : Bool := bitN w 58
def mRetf (w : Nat) : Nat := bitsN w 57 54

def dPairs (w : Nat) : Bool := bitN w 118
def dProb (w : Nat) : Nat := bitsN w 117 115
def dPack (w : Nat) : Nat := bitsN w 114 112
def dTfmt (w : Nat) : Nat := bitsN w 111 109
def dAct (w : Nat) : Nat := bitsN w 108 107
def dTid (w : Nat) : Nat := bitsN w 106 91
def dDse (w : Nat) : Bool := bitN w 90
def dDbank (w : Nat) : Nat := bitsN w 89 88
def dBse (w : Nat) : Bool := bitN w 87
def dBbank (w : Nat) : Nat := bitsN w 86 85
def dRs (w : Nat) : Bool := bitN w 84
def dGout (w : Nat) : Nat := bitsN w 83 82
def dTag (w : Nat) : Nat := bitsN w 81 76
def dSq (w : Nat) : Nat := bitsN w 75 75
def dAmax (w : Nat) : Bool := bitN w 74
def dStat (w : Nat) : Bool := bitN w 73
def dRetfEn (w : Nat) : Bool := bitN w 72
def dRetf (w : Nat) : Nat := bitsN w 71 68

/-! ## Operand formats (R50, R148) -/

/-- Plane operand formats. -/
inductive OpFmt where
  | fp4 | e4m3 | e5m2 | fp16 | bf16 | int4 | int8
  deriving DecidableEq, Repr

/-- Width in bits. -/
def OpFmt.width : OpFmt → Nat
  | .fp4 => 4 | .int4 => 4 | .e4m3 => 8 | .e5m2 => 8 | .int8 => 8 | .fp16 => 16 | .bf16 => 16

/-- Exact value of a code (R50). -/
def OpFmt.value : OpFmt → Nat → Fp
  | .fp4, c => Fmt.decode Machine.e2m1 c
  | .e4m3, c => Fmt.decode Machine.e4m3 c
  | .e5m2, c => Fmt.decode Machine.e5m2 c
  | .fp16, c => Fmt.decode Machine.fp16 c
  | .bf16, c => Fmt.decode Machine.bf16 c
  | .int4, c => .fin (decide (signedN c 4 < 0)) (signedN c 4).natAbs 0
  | .int8, c => .fin (decide (signedN c 8 < 0)) (signedN c 8).natAbs 0

/-- The fixed unit exponent of a format (R53); `none` for a dynamic format. -/
def OpFmt.fixedUnit : OpFmt → Option Int
  | .fp4 => some (-1) | .int4 => some 0 | .int8 => some 0 | .e4m3 => some (-9)
  | _ => none

/-- E_min of a dynamic format (R54). -/
def OpFmt.emin : OpFmt → Int
  | .e5m2 => -16 | .fp16 => -24 | .bf16 => -133 | _ => 0

/-- The operand pairs in the order of their codes (R148). -/
def pairTable : List (Option (OpFmt × OpFmt)) :=
  [some (.fp4, .fp4), some (.int4, .int4), some (.int8, .int8), some (.int4, .int8), some (.int8, .int4),
    some (.e4m3, .e4m3), some (.e4m3, .e5m2), some (.e5m2, .e4m3), some (.e5m2, .e5m2), some (.fp4, .e4m3),
    some (.e4m3, .fp4), some (.fp4, .e5m2), some (.e5m2, .fp4), none, none, none,
    some (.fp16, .fp4), some (.fp16, .e4m3), some (.fp16, .e5m2), some (.fp16, .fp16), some (.fp16, .bf16),
    some (.bf16, .fp4), some (.bf16, .e4m3), some (.bf16, .e5m2), some (.bf16, .fp16), some (.bf16, .bf16),
    some (.fp4, .fp16), some (.e4m3, .fp16), some (.e5m2, .fp16), some (.fp4, .bf16), some (.e4m3, .bf16),
    some (.e5m2, .bf16)]

/-- The a-format and the b-format of each operand pair code (R148); `none` is reserved. -/
def pairOf (code : Nat) : Option (OpFmt × OpFmt) := pairTable.getD code none

/-- a-format of an operation. -/
def aFmt (w : Nat) : OpFmt := ((pairOf (mFmt w)).getD (.int8, .int8)).1

/-- b-format of an operation. -/
def bFmt (w : Nat) : OpFmt := ((pairOf (mFmt w)).getD (.int8, .int8)).2

/-- G of an operation: GSZ, or 32 for an SQDIST on FP8 E4M3 (R104). -/
def mG (w : Nat) : Nat := if mCell w = 1 ∧ mFmt w = 5 then 32 else 32 * 2 ^ mGsz w

/-- Groups of an operation (R59). -/
def mGroups (w : Nat) : Nat := (mK w + mG w - 1) / mG w

/-- K-steps of group g (R59). -/
def mKsteps (w g : Nat) : Nat := min (mG w) (mK w - g * mG w)

/-- Half edge cycles per K-step: 1, 2 or 4 for the three rates (R51, R78, R91, R103, R106). -/
def mPace (w : Nat) : Nat :=
  let a := (aFmt w).width
  let b := if mCell w = 6 then a else (bFmt w).width
  if a = 16 ∨ b = 16 then 4
  else if a = 4 ∧ b = 4 ∧ !mTbuf w then 1
  else 2

/-! ## Edge integers (R53–R57) -/

/-- A segment at the edge: its unit, the edge integers, the non-finite marks, and whether a conversion lost
something. -/
structure EdgeSeg where
  unit : Int
  vals : List Int
  bad : List Bool
  rnd : Bool
  deriving DecidableEq, Repr

/-- Unit of a segment (R53, R54). -/
def segUnit (f : OpFmt) (vs : List Fp) : Int :=
  match f.fixedUnit with
  | some e => e
  | none => vs.foldl (fun m v => if v.isFin && !v.isZero then max m (v.dy.ilog2 - 17) else m) f.emin

/-- The edge integers of a segment (R53, R54, R56, R57). -/
def edgeSeg (f : OpFmt) (codes : List Nat) : EdgeSeg :=
  let vs := codes.map f.value
  let e := segUnit f vs
  let is := vs.map (fun v => v.dy.rnaInt e)
  ⟨e, is, vs.map (fun v => !v.isFin), (vs.zip is).any (fun p => decide ((p.1.dy.sub ⟨p.2, e⟩).m ≠ 0))⟩

/-- Elements of w bits packed from bit 0 upward in bytes (R151): n of them. -/
def unpackBits (w n : Nat) (l : List Byte) : List Nat :=
  let v := ofBytesLE (l.take ((n * w + 7) / 8))
  (List.range n).map (fun i => bitsN v (w * i + w - 1) (w * i))

/-- Numbers of w bits packed from bit 0 upward into whole bytes (R139, R151). -/
def packBits (w : Nat) (l : List Nat) : List Byte :=
  bytesLE ((l.length * w + 7) / 8) (l.foldr (fun v a => v % 2 ^ w + a * 2 ^ w) 0)

/-! ## Invalid encodings (R144, R149, R154) -/

/-- Are bits [hi:lo] clear? -/
def zeroN (w hi lo : Nat) : Bool := decide (bitsN w hi lo = 0)

/-- No number stands twice in a list. -/
def allDistinct : List Nat → Bool
  | [] => true
  | h :: t => !t.contains h && allDistinct t

/-- The load queues an operation names. -/
def mQueues (w : Nat) : List Nat :=
  [mAq w] ++ (if mBsrc w = 0 then [mBq w] else []) ++ (if mRsrc w then [mRq w] else [])
    ++ (if mCsrc w = 2 ∧ mBsrc w ≠ 1 then [mCq w] else []) ++ (if mPre w ≠ 0 then [mPq w] else [])

/-- An MRUN that R144, R147 or R149 rejects; `mode` is PLN_CHAIN.MODE. The conditions of R99 and R118 are
apart. -/
def mrunBad (w mode : Nat) : Bool :=
  mPlane w == 3 || mGsz w == 3 || (pairOf (mFmt w)).isNone || mCell w == 7 || mBsrc w == 3 || mCsrc w == 3
  || !zeroN w 53 0
  || (mBsrc w != 0 && mBq w != 0) || (!mRsrc w && mRq w != 0) || (mCsrc w == 0 && mCbank w != 0)
  || ((mCsrc w != 2 || mBsrc w == 1) && mCq w != 0) || (mPre w == 0 && mPq w != 0)
  || (mCell w != 0 && mCell w != 6 && mFmt w != 2 && mFmt w != 5)
  || (mCell w == 6 && (aFmt w != bFmt w || mBsrc w != 2)) || (mCell w != 6 && mBsrc w == 2)
  || (mBsrc w == 1 && (mode == 0 || mode == 1)) || (mBsrc w != 1 && (mode == 2 || mode == 3))
  || (mTbuf w && (mBsrc w != 0 || mPack w != 0)) || (mPre w != 0 && !mOpen w) || (mPack w != 0 && mPlane w == 2)
  || !allDistinct (mQueues w)

/-- GROUPSTREAM outside the conditions of R118. -/
def groupstreamBad (w : Nat) : Bool :=
  mCsrc w == 2 && (mG w != 32 || !(bFmt w == .fp4 || bFmt w == .int4))

/-- A DRAIN that R144, R153 or R154 rejects, but for a PROB that its map does not name. -/
def drainBad (w : Nat) : Bool :=
  mPlane w == 3 || dTfmt w == 7 || dGout w == 3 || !zeroN w 67 0
  || (dRs w && decide (2 < dTfmt w))
  || (dTfmt w == 6 && (dAct w != 0 || dDse w || dBse w || dRs w || dAmax w || dPairs w))
  || (dPairs w && (dGout w != 2 || mSlot w % 2 != 0 || dPack w != 0)) || (dGout w == 2 && !dPairs w)
  || (dPack w == 0 && dProb w != 0)

/-! ## Vector slot (R156, R157) -/

def vOp (v : Nat) : Nat := bitsN v 63 58
def vD (v : Nat) : Nat := bitsN v 57 53
def vA (v : Nat) : Nat := bitsN v 52 48
def vB (v : Nat) : Nat := bitsN v 47 43
def vC (v : Nat) : Nat := bitsN v 42 38
def vPred (v : Nat) : Nat := bitsN v 37 36
def vPk (v : Nat) : Nat := bitsN v 35 34

/-- Bits of EXT that an opcode defines; `none` is a reserved opcode. -/
def vExt : Nat → Option Nat
  | 0x0C => some 0x3 | 0x14 => some 0xFF | 0x18 => some 0x7 | 0x20 => some 0xFFFFFFFF
  | 0x28 => some 0x3 | 0x29 => some 0x1 | 0x2A => some 0x3FFF00000
  | 0x21 => some 0
  | n => if n ≤ 0x0D ∨ (0x10 ≤ n ∧ n ≤ 0x13) then some 0 else none

/-- Opcodes for which PK must be 0 (R157). -/
def vNoPk (v : Nat) : Bool :=
  [0x07, 0x08, 0x0D, 0x10, 0x11, 0x12, 0x13, 0x14, 0x28, 0x29, 0x2A].contains (vOp v)
    || (vOp v == 0x18 && decide (2 < bitsN v 2 0))

/-- A vector slot that R144, R157, R158, R161 or R162 rejects; `rows` gives a plane's rows in PLN_GEOM. -/
def vectorBad (v : Nat) (rows : Nat → Nat) : Bool :=
  match vExt (vOp v) with
  | none => true
  | some m =>
    decide (bitsN v 33 0 &&& m ≠ bitsN v 33 0) || vPred v == 3 || decide (1 < vPk v) || (vPk v != 0 && vNoPk v)
    || (decide (0x28 ≤ vOp v) && vPred v != 0)
    || (vOp v == 0x14 && (decide (6 < bitsN v 7 4) || decide (6 < bitsN v 3 0) || bitsN v 7 4 == bitsN v 3 0
          || (bitsN v 7 4 != 0 && bitsN v 3 0 != 0)))
    || (vOp v == 0x18 && bitsN v 2 0 == 7)
    || (vOp v == 0x2A && (bitsN v 33 32 == 3 || decide (rows (bitsN v 33 32) ≤ bitsN v 28 21)))

/-- Source registers an instruction reads. -/
def vReads (v : Nat) : List Nat :=
  match vOp v with
  | 0x00 | 0x20 | 0x28 | 0x2A => []
  | 0x04 | 0x0D => [vA v, vB v, vC v]
  | 0x07 | 0x08 | 0x0A | 0x0B | 0x13 | 0x14 | 0x18 | 0x21 | 0x29 => [vA v]
  | _ => [vA v, vB v]

/-- Latency of a vector instruction in cycles (R172). -/
def vLatency (v : Nat) : Nat :=
  match vOp v with
  | 0x09 | 0x0A | 0x0B => 16
  | 0x14 => 3 | 0x18 => 8 | 0x2A => 6
  | n => if n ≤ 0x06 then 4 else 2

/-! ## Scalar and sync slots (R164, R167) -/

def sOp (s : Nat) : Nat := bitsN s 39 36
def sCa (s : Nat) : Nat := bitsN s 35 33
def sCb (s : Nat) : Nat := bitsN s 32 30
def sKn (s : Nat) : Nat := bitsN s 29 28
def sCond (s : Nat) : Nat := bitsN s 27 24
def sImm (s : Nat) : Nat := bitsN s 23 0

/-- A scalar slot that R144 or R164 rejects. -/
def scalarBad (s : Nat) : Bool :=
  match sOp s with
  | 0 | 8 => !zeroN s 35 0
  | 1 | 2 => !zeroN s 32 24
  | 3 => !zeroN s 32 30 || decide (3 < sCond s)
  | 4 => decide (3 < sCond s) || !zeroN s 23 0
  | 5 => !zeroN s 35 30 || !zeroN s 27 25
  | 6 => !zeroN s 35 24
  | 7 => !zeroN s 32 24
  | _ => true

def yOp (y : Nat) : Nat := bitsN y 23 20
def yConsume (y : Nat) : Bool := bitN y 19
def yArg (y : Nat) : Nat := bitsN y 15 0

/-- A sync slot that R144 rejects. -/
def syncBad (y : Nat) : Bool := decide (3 < yOp y) || !zeroN y 18 16

/-! ## Load and store slots (R169) -/

def lOp (l : Nat) : Nat := bitsN l 63 60
def lAg (l : Nat) : Nat := bitsN l 59 57
def lQ (l : Nat) : Nat := bitsN l 56 55
def lSq (l : Nat) : Nat := bitsN l 56 56
def lRst (l : Nat) : Bool := bitN l 54
def lRep (l : Nat) : Nat := bitsN l 53 38 + 1
def lAddr (l : Nat) : Nat := bitsN l 53 38
def lPlane (l : Nat) : Nat := bitsN l 59 59
def lBank (l : Nat) : Nat := bitsN l 58 57
def lField (l : Nat) : Nat := bitsN l 56 55
def lValue (l : Nat) : Nat := bitsN l 47 0

/-- An AGSET that R168 or R169 rejects. -/
def agsetBad (l : Nat) : Bool :=
  !zeroN l 54 48 || (if lField l = 1 then !zeroN l 31 16 else !zeroN l 5 0)

/-- A load slot that R144 or R169 rejects. -/
def loadBad (l : Nat) : Bool :=
  match lOp l with
  | 0 => !zeroN l 59 0
  | 1 => !zeroN l 37 0
  | 2 => !zeroN l 59 54 || !zeroN l 37 0
  | 3 => !zeroN l 56 54 || !zeroN l 37 0
  | 4 => agsetBad l
  | _ => true

/-- A store slot that R144 or R169 rejects. -/
def storeBad (l : Nat) : Bool :=
  match lOp l with
  | 0 => !zeroN l 59 0
  | 1 => !zeroN l 55 55 || !zeroN l 37 0
  | 4 => agsetBad l
  | _ => true

end Sys2Proof.Machine
end

