-- ==== Sys2Proof/Machine/Geom.lean ====
section
/-! DEFINITION. Geometry of the product planes (03 R74, R75, R98–R101, R114), the weight chain's neighbours
(R17, R93) and the slots of an operation (R75, R86). -/

namespace Sys2Proof.Machine

/-- Bands of a plane: 3 on F, 6 on B (R74). -/
def bandCount (plane : Nat) : Nat := if plane = 0 then 3 else 6

/-- Is a pack unit of a plane fenced (PLN_PU_FENCE)? -/
def Dev.unitFenced (d : Dev) (c plane u : Nat) : Bool := d.bit (aPln c 0x104) (if plane = 0 then u else 6 + u)

/-- Available bands in ascending order (R114). -/
def Dev.bands (d : Dev) (c plane : Nat) : List Nat :=
  (List.range (bandCount plane)).filter (fun b => !d.unitFenced c plane (2 * b) && !d.unitFenced c plane (2 * b + 1))

/-- Available rows of F (0), B (1) or J (2), as PLN_GEOM shows them. -/
def Dev.rows (d : Dev) (c plane : Nat) : Nat := d.fld (aPln c 0x100) (8 * plane + 7) (8 * plane)

/-- The planes an operation or drain of a PLANE field uses (R75). -/
def subPlanes (plane : Nat) : List Nat := if plane = 2 then [0, 1] else [plane]

/-- Slot keys of plane and slot (R75). -/
def slotKeys (plane slot : Nat) : List Nat := (subPlanes plane).map (fun p => 8 * p + slot)

/-- Logical rows of F above those of B on the joined plane: where sub-plane p starts. -/
def Dev.rowBase (d : Dev) (c plane p : Nat) : Nat := if plane = 2 ∧ p = 1 then d.rows c 0 else 0

/-! ## Pack maps (R98, R99) -/

/-- A rectangle of logical rows and columns that belongs to one problem. -/
structure Rect where
  prob : Nat
  row : Nat
  rows : Nat
  col : Nat
  cols : Nat
  deriving DecidableEq, Repr

/-- Entries of map m of a plane, by pack unit (R98). -/
def Dev.mapUnits (d : Dev) (c plane m : Nat) : List Nat :=
  if plane = 0 then (List.range 6).map (fun u => d.fld (aPln c (0x200 + 4 * m)) (4 * u + 3) (4 * u))
  else (List.range 12).map (fun u =>
    if u < 8 then d.fld (aPln c (0x220 + 4 * m)) (4 * u + 3) (4 * u)
    else d.fld (aPln c (0x240 + 4 * m)) (4 * (u - 8) + 3) (4 * (u - 8)))

/-- Units that a map gives to problem p. -/
def unitsOf (us : List Nat) (p : Nat) : List Nat := (List.range us.length).filter (fun u => us.getD u 15 == p)

/-- Smallest and largest of a list. -/
def listMin (l : List Nat) : Nat := l.foldl min (l.headD 0)
def listMax (l : List Nat) : Nat := l.foldl max 0

/-- A problem covers a rectangle of whole available pack units (R99). -/
def probOk (us bands : List Nat) (p : Nat) : Bool :=
  let l := unitsOf us p
  let bs := l.map (fun u => u / 2)
  let hs := l.map (fun u => u % 2)
  (List.range us.length).all (fun u =>
    if listMin bs ≤ u / 2 ∧ u / 2 ≤ listMax bs ∧ listMin hs ≤ u % 2 ∧ u % 2 ≤ listMax hs then
      us.getD u 15 == p && bands.contains (u / 2)
    else true)

/-- Problems a map names. -/
def mapProbs (us : List Nat) : List Nat := (List.range 8).filter (fun p => us.contains p)

/-- A valid map (R99): DEDUCED (log entry 87): it names at least one problem. -/
def mapOk (us bands : List Nat) : Bool :=
  us.all (fun u => decide (u ≤ 7) || u == 15) && !(mapProbs us).isEmpty && (mapProbs us).all (probOk us bands)

/-- The pack map registers of a core (R98). -/
def Dev.packRegs (d : Dev) (c : Nat) : List Word :=
  (List.range 7).flatMap (fun i => [d.reg (aPln c (0x204 + 4 * i)), d.reg (aPln c (0x224 + 4 * i)), d.reg (aPln c (0x244 + 4 * i))])

/-- PLN_PACK_VALID as the maps in effect and the available bands give it. -/
def Dev.packValid (d : Dev) (c : Nat) : Nat :=
  (List.range 7).foldl (fun v i => v + b2n (mapOk (d.mapUnits c 0 (i + 1)) (d.bands c 0)) * 2 ^ (i + 1)
    + b2n (mapOk (d.mapUnits c 1 (i + 1)) (d.bands c 1)) * 2 ^ (i + 9)) 0

/-- The rectangle of a problem, in logical rows. -/
def probRect (us bands : List Nat) (p : Nat) : Rect :=
  let l := unitsOf us p
  let bs := l.map (fun u => u / 2)
  let hs := l.map (fun u => u % 2)
  ⟨p, 16 * (bands.filter (fun b => decide (b < listMin bs))).length, 16 * (listMax bs + 1 - listMin bs),
    32 * listMin hs, 32 * (listMax hs + 1 - listMin hs)⟩

/-- Rectangles of plane and map, in ascending problem order; map 0 is one problem on the whole plane. -/
def Dev.rects (d : Dev) (c plane m : Nat) : List Rect :=
  if m = 0 then [⟨0, 0, d.rows c plane, 0, 64⟩]
  else (mapProbs (d.mapUnits c plane m)).map (probRect (d.mapUnits c plane m) (d.bands c plane))

/-- W_a and W_b of R101. -/
def sumRows (rs : List Rect) : Nat := rs.foldl (fun s r => s + r.rows) 0
def sumCols (rs : List Rect) : Nat := rs.foldl (fun s r => s + r.cols) 0

/-- The factor s of R101. -/
def Dev.packFactor (d : Dev) (c plane m : Nat) : Nat :=
  let rs := d.rects c plane m
  max ((sumRows rs + d.rows c plane - 1) / max 1 (d.rows c plane)) ((sumCols rs + 63) / 64)

/-- Edge cycles from one K-step to n K-steps later (R78, R101). -/
def Dev.edgeSpan (d : Dev) (c w n : Nat) : Nat := (n * mPace w / 2) * d.packFactor c (mPlane w) (mPack w)

/-- Cycles from the edge cycle of a K-step to its group's sum in every slot element it reaches: rows and columns of each
rectangle from its northwest cell, and the pipeline (R79, R101); rows + 73 when unpacked. -/
def Dev.lastCell (d : Dev) (c w : Nat) : Nat :=
  9 + (d.rects c (mPlane w) (mPack w)).foldl (fun m r => max m (r.rows + r.cols)) 0

/-- Edge cycles E of an operation (R79). -/
def Dev.edgeCycles (d : Dev) (c w : Nat) : Nat := d.edgeSpan c w (mK w - 1) + 1

/-- Cells of plane 0, 1 or 2 in use. -/
def Dev.planeCells (d : Dev) (c plane : Nat) : Nat := 64 * d.rows c plane

/-- Pack unit (plane, unit) on which logical row and half ran: rotated by one band and one half when shifted
(R74, R112, R341). -/
def Dev.unitRan (d : Dev) (c plane lrow half : Nat) (shift : Bool) : Nat × Nat :=
  let p := if plane = 2 then (if lrow < d.rows c 0 then 0 else 1) else plane
  let r := if plane = 2 ∧ p = 1 then lrow - d.rows c 0 else lrow
  let bs := d.bands c p
  let k := (r / 16 + b2n shift) % max 1 bs.length
  (p, 2 * bs.getD k 0 + (half + b2n shift) % 2)

/-! ## The weight chain (R17, R93) -/

/-- Device column of a core. -/
def devCol (c : Nat) : Nat := c / 156 * 13 + c % 13

/-- Row of a core. -/
def devRow (c : Nat) : Nat := c % 156 / 13

/-- Core at a row and device column. -/
def coreAt (row col : Nat) : Nat := col / 13 * 156 + row * 13 + col % 13

/-- PLN_CHAIN.MODE; a fenced core is BYPASS. -/
def Dev.chainMode (d : Dev) (c : Nat) : Nat := if d.fenced c then 0 else d.fld (aPln c 0x108) 1 0

/-- The next core east on the chain that is not BYPASS. -/
def Dev.chainEast (d : Dev) (c : Nat) : Option Nat :=
  if d.chainMode c = 0 ∨ d.chainMode c = 3 then none
  else (((List.range 26).filter (fun x => decide (devCol c < x))).map (coreAt (devRow c))).find? (fun k => d.chainMode k != 0)

/-- The next core west on the chain that is not BYPASS. -/
def Dev.chainWest (d : Dev) (c : Nat) : Option Nat :=
  if d.chainMode c ≤ 1 then none
  else ((((List.range 26).filter (fun x => decide (x < devCol c))).reverse).map (coreAt (devRow c))).find? (fun k => d.chainMode k != 0)

/-- Follow a neighbour n times. -/
def walk (f : Nat → Option Nat) : Nat → Nat → List Nat
  | 0, _ => []
  | n + 1, c => match f c with
    | some k => k :: walk f n k
    | none => []

/-- Cycles of the chain links between two cores of a device row (R94). -/
def linkCycles (a b : Nat) : Nat := 6 * (max (devCol a) (devCol b) - min (devCol a) (devCol b))

/-- Members of the chain of a core, west to east, the core alone when it is BYPASS. -/
def Dev.chainOf (d : Dev) (c : Nat) : List Nat :=
  if d.chainMode c = 0 then [c] else (walk d.chainWest 26 c).reverse ++ [c] ++ walk d.chainEast 26 c

/-! ## Slots -/

/-- A slot's record. -/
def Core.slot (k : Core) (key : Nat) : Slot := k.slots.getD key {}

/-- A slot's record replaced. -/
def Core.setSlot (k : Core) (key : Nat) (s : Slot) : Core := { k with slots := k.slots.store {} key s }

/-- Slot keys an operation writes. -/
def Op.keys (o : Op) : List Nat := slotKeys (mPlane o.w) (mSlot o.w)

/-- Operations of the core issued and not retired, in issue order. -/
def Core.ops (k : Core) : List Op := k.flight ++ k.issue

/-- Busy bit of a slot (R86). -/
def Core.busy (k : Core) (key : Nat) : Bool := k.ops.any (fun o => o.keys.contains key)

/-- Slot keys a drain reads. -/
def Drain.keys (x : Drain) : List Nat :=
  slotKeys (mPlane x.w) (mSlot x.w) ++ (if dPairs x.w then slotKeys (mPlane x.w) (mSlot x.w + 1) else [])

/-- Drains issued whose last row is not read. -/
def Core.reading (k : Core) : List Drain :=
  k.drains ++ (k.drain.toList.filter (fun x => decide (x.row < x.rows)))

/-- A slot held by a drain from its issue until its last row is read (R184). -/
def Core.drainHolds (k : Core) (key : Nat) : Bool := k.reading.any (fun x => x.keys.contains key)

/-- An element of a slot (R63: a cell nothing has loaded holds +0, FINITE). -/
def Slot.elem (s : Slot) (r j : Nat) : Elem := (s.rows.getD r []).getD j {}

/-- A slot's elements filled out to rows × 64. -/
def Slot.full64 (s : Slot) (rows : Nat) : List (List Elem) :=
  (List.range rows).map (fun r => (List.range 64).map (fun j => s.elem r j))

/-- A plane's edge record. -/
def Core.edge (k : Core) (p : Nat) : PlaneEdge := k.edges.getD p {}

/-- A plane's edge record replaced. -/
def Core.setEdge (k : Core) (p : Nat) (e : PlaneEdge) : Core := { k with edges := k.edges.store {} p e }

/-- Replace an operation in flight. -/
def Core.setOp (k : Core) (o : Op) : Core := { k with flight := k.flight.map (fun x => if x.seq = o.seq then o else x) }

/-- Pack units of a plane that a rectangle's rows and columns lie on, by logical band (flags of R102). -/
def rectUnits (r : Rect) : List Nat :=
  (List.range (r.rows / 16)).flatMap (fun b => (List.range (r.cols / 32)).map (fun h => 2 * (r.row / 16 + b) + r.col / 32 + h))

/-- Set flag bits on pack units of a slot. -/
def Slot.flagUnits (s : Slot) (us : List Nat) (m : Nat) : Slot :=
  if m = 0 then s else { s with uf := us.foldl (fun t u => t.put u (t.getD u 0 ||| m)) s.uf }

/-- The OR of a slot's flags over pack units: SAT, NF, RND, LONGSUM. -/
def Slot.flagsOf (s : Slot) (us : List Nat) : Nat := us.foldl (fun m u => m ||| s.uf.getD u 0) 0

/-- Every pack unit. -/
def allUnits : List Nat := List.range 12

/-- Status of a slot as PLN_SLOT_F_n and PLN_SLOT_B_n show it (R86, R87, R116). -/
def Slot.status (s : Slot) (busy paused : Bool) : Nat :=
  let f := s.flagsOf allUnits
  let st := if s.draining then 4 else if paused && busy then 2 else if busy then 1 else if s.full then 3 else 0
  s.cnt % 2 ^ 20 + b2n (bitN f 3) * 2 ^ 20 + b2n (bitN f 2) * 2 ^ 21 + b2n (bitN f 1) * 2 ^ 22 + b2n (bitN f 0) * 2 ^ 23
    + b2n s.stale * 2 ^ 25 + b2n s.shift * 2 ^ 26 + b2n busy * 2 ^ 27 + 2 ^ 28 * st

/-- Has a core stopped for a context command (R191)? A chain member that waits for the others has not (R192). -/
def Core.stopping (k : Core) : Bool :=
  match k.ctx with
  | some x => !x.save || x.stopped
  | none => false

/-- Does a chain member still hold b-rows that the START core has sent? It runs on to the same group boundary (R192). DEDUCED (log
entry 136). -/
def Core.chainLag (k : Core) : Bool := !k.chainIn.isEmpty && (match k.ctx with
  | some x => x.save && !x.ready
  | none => false)

/-- A core on its job, or 0 for none, as records show it. -/
def Dev.jobNo (d : Dev) (c : Nat) : Nat := ((d.core c).job).getD 0

end Sys2Proof.Machine
end

