-- ==== Sys2Proof/Machine/Feeds.lean ====
section
/-! DEFINITION. Address generators and transfer patterns (05 R168–R170), the queues of a core (06 R176–R178),
the memory order of transfers (R175), replay logs and held ranges (07 R215–R219), and how an operation takes its
blocks (R151, R211, R219). -/

namespace Sys2Proof.Machine

/-! ## Generators and patterns -/

/-- A generator of the core. -/
def Core.agen (k : Core) (n : Nat) : AddrGen := k.ags.getD n {}

/-- A generator replaced. -/
def Core.setAgen (k : Core) (n : Nat) (g : AddrGen) : Core := { k with ags := k.ags.store {} n g }

/-- Entries of one pattern. -/
def AddrGen.pat (g : AddrGen) : Nat := g.lines * (g.len / 64)

/-- Entries of a transfer. -/
def Transfer.entries (t : Transfer) : Nat :=
  match t.kind with
  | .table => 65
  | .bank => 4
  | _ => t.rep * t.ag.pat

/-- A 48-bit address. -/
def addr48 (i : Int) : Nat := wrapN i 48

/-- Address of entry n of a generator's patterns (R168). -/
def AddrGen.entryAddr (g : AddrGen) (n : Nat) : Nat :=
  let p := n / max 1 g.pat
  let m := n % max 1 g.pat
  let ll := max 1 (g.len / 64)
  addr48 ((g.cur : Int) + (p : Int) * g.adv + ((m / ll : Nat) : Int) * g.stride + ((m % ll * 64 : Nat) : Int))

/-- Bounding range [lo, hi) of rep patterns (R175). -/
def AddrGen.bounds (g : AddrGen) (rep : Nat) : Nat × Nat :=
  let dp := ((rep - 1 : Nat) : Int) * g.adv
  let dl := ((g.lines - 1 : Nat) : Int) * g.stride
  let lo := (g.cur : Int) + min 0 dp + min 0 dl
  let hi := (g.cur : Int) + max 0 dp + max 0 dl + g.len
  (lo.toNat, hi.toNat)

/-- Two ranges overlap. -/
def overlaps (a b c e : Nat) : Bool := decide (a < e) && decide (c < b)

/-- Address of the next entry of a transfer. -/
def Transfer.nextAddr (t : Transfer) : Nat :=
  match t.kind with
  | .load => t.ag.entryAddr t.done
  | .store => t.ag.entryAddr t.done
  | _ => t.lo + 64 * t.done

/-- Is the transfer a writer of memory? -/
def Transfer.writes (t : Transfer) : Bool := t.kind == .store

/-- Must a transfer wait for an earlier-issued incomplete one (R175)? -/
def Core.orderWaits (k : Core) (t : Transfer) : Bool :=
  k.trans.any (fun x => decide (x.seq < t.seq) && (x.writes || t.writes) && overlaps x.lo x.hi t.lo t.hi)

/-- Transfers of an engine: 0–3 LQ, 4–5 SQ; 6 the TLOAD and CSLD engine. -/
def Core.engine (k : Core) (q : Nat) : List Transfer :=
  k.trans.filter (fun t => if q = 6 then t.kind == .table || t.kind == .bank else (t.kind == .load || t.kind == .store) && t.q == q)

/-- A list of transfers with the first of a number replaced. -/
def Transfer.swap (t : Transfer) : List Transfer → List Transfer
  | [] => []
  | x :: l => if x.seq = t.seq then t :: l else x :: Transfer.swap t l

/-- Replace a transfer. -/
def Core.setTrans (k : Core) (t : Transfer) : Core := { k with trans := t.swap k.trans }

/-- A transfer has completed. -/
def Core.dropTrans (k : Core) (n : Nat) : Core := { k with trans := k.trans.filter (fun x => x.seq != n) }

/-! ## Queues -/

/-- Capacity of a queue (R176). -/
def qCap (q : Nat) : Nat := if q < 4 then 512 else 256

/-- A queue's entries, oldest first. -/
def Core.queue (k : Core) (q : Nat) : List QEntry := k.queues.getD q []

/-- A queue's entries replaced. -/
def Core.setQueue (k : Core) (q : Nat) (l : List QEntry) : Core := { k with queues := k.queues.store [] q l }

/-- Sequence number of the next entry pushed to, and taken from, a queue. -/
def Core.pushed (k : Core) (q : Nat) : Nat := k.pushSeq.getD q 0
def Core.taken (k : Core) (q : Nat) : Nat := k.takeSeq.getD q 0

/-- Entries pushed to a queue (R177). -/
def Core.push (k : Core) (q : Nat) (l : List QEntry) : Core :=
  { (k.setQueue q (k.queue q ++ l)) with pushSeq := k.pushSeq.put q (k.pushed q + l.length),
                                          progress := k.progress || !l.isEmpty }

/-- Entries of a queue that have entered it by a cycle, and of two queues as the registers show them (R141, R198). -/
def Core.fill (k : Core) (cyc q : Nat) : Nat := ((k.queue q).filter (fun e => decide (e.due ≤ cyc))).length
def Core.fill2 (k : Core) (cyc q : Nat) : Nat := k.fill cyc (q + 1) * 65536 + k.fill cyc q

/-- Free entries of a queue. -/
def Core.space (k : Core) (q : Nat) : Nat := qCap q - (k.queue q).length

/-- n entries taken from the front of a queue. -/
def Core.drop (k : Core) (q n : Nat) : Core :=
  { (k.setQueue q ((k.queue q).drop n)) with takeSeq := k.takeSeq.put q (k.taken q + n), progress := true }

/-- The n entries at the front of a queue, when they are there in this cycle. -/
def Core.front (k : Core) (q n cyc : Nat) : Option (List QEntry) :=
  let l := (k.queue q).take n
  if l.length = n ∧ l.all (fun e => decide (e.due ≤ cyc)) then some l else none

/-! ## Replay logs (R215, R216) -/

/-- Does an operation that is not retired hold a log entry: it took some of its entries? -/
def LogEntry.inUse (e : LogEntry) (o : Op) : Bool :=
  let f := o.firstSeq.getD e.q 0
  let n := o.tookN.getD e.q 0
  decide (0 < n) && decide (f < e.last) && decide (e.first < f + n)

/-- Log entries whose entries are all taken and whose takers have retired are freed (R216). -/
def Core.freeLogs (k : Core) : Core :=
  { k with logs := k.logs.filter (fun e => decide (k.taken e.q < e.last) || k.ops.any e.inUse) }

/-- Log entries of a queue. -/
def Core.logsOf (k : Core) (q : Nat) : List LogEntry := k.logs.filter (fun e => e.q == q)

/-- The first transfer of a load engine starts and enters the log, once no earlier transfer holds it back and the
log has room (R175, R215, R216). -/
def Core.startLoad (k : Core) (q : Nat) : Core :=
  match k.engine q with
  | [] => k
  | t :: _ =>
    if t.logged ∨ k.orderWaits t then k
    else
      let first := k.pushed q
      let lst := (k.logsOf q).getLast?
      let ext := t.cont && (match lst with
        | some e => e.agn == t.agn && e.last == first
        | none => false)
      if ext then
        match lst with
        | some e =>
          { (k.setTrans { t with logged := true }) with
              logs := k.logs.map (fun x => if x = e then { e with last := first + t.entries, rep := e.rep + t.rep, lo := min e.lo t.lo, hi := max e.hi t.hi, rst := t.rst } else x) }
        | none => k
      else if 16 ≤ (k.logsOf q).length then k
      else
        { (k.setTrans { t with logged := true }) with
            logs := k.logs ++ [⟨q, t.agn, t.ag, t.rep, first, first + t.entries, t.lo, t.hi, t.rst⟩] }

/-- Must a store wait for a held range (R217)? -/
def Core.rangeHeld (k : Core) (lo hi : Nat) : Bool := k.logs.any (fun e => overlaps e.lo e.hi lo hi)

/-- Does an engine's next transfer wait on the memory order before its first entry (R175, R217)? -/
def Core.memWaits (k : Core) (q : Nat) : Bool :=
  match (k.engine q).head? with
  | some t => decide (t.done = 0) && (k.orderWaits t || (t.kind == .store && k.rangeHeld t.lo t.hi))
  | none => false

/-! ## Supplying operations -/

/-- Has an operation still blocks to take from a load queue? -/
def Op.takesFrom (o : Op) (q : Nat) : Bool :=
  if mPre o.w ≠ 0 ∧ mPq o.w = q then o.t0.isNone || decide (0 < o.preLeft)
  else (mQueues o.w).contains q && (o.t0.isNone || decide (o.inj < mGroups o.w))

/-- Entries of a load queue that an edge still takes with a group it has injected (R211). -/
def Core.owes (k : Core) (q : Nat) : Nat := k.owe.getD q 0

/-- Must an operation wait for an earlier one's blocks of a queue (R178)? -/
def Core.queueTurn (k : Core) (o : Op) (q : Nat) : Bool :=
  !k.ops.any (fun x => decide (x.seq < o.seq) && x.takesFrom q) && (decide (k.owes q = 0) || decide (0 < o.tookN.getD q 0))

/-- n entries of a queue given to an edge: at once, or with `slow` four in a cycle (R211). -/
def Core.give (k : Core) (q n : Nat) (slow : Bool) : Core :=
  if n = 0 then k
  else if slow || decide (0 < k.owes q) then
    { k with owe := k.owe.store 0 q (k.owes q + n), takeSeq := k.takeSeq.put q (k.taken q + n), progress := true }
  else k.drop q n

/-- One cycle of an edge's taking (R211). -/
def Core.oweTick (k : Core) : Core :=
  k.owe.foldl (fun (k : Core) p =>
    let m := min 4 p.2
    { (k.setQueue p.1 ((k.queue p.1).drop m)) with owe := k.owe.store 0 p.1 (p.2 - m), progress := true }) k

/-- The entries an edge is taking are out of their queues. -/
def Core.settleOwe (k : Core) : Core :=
  { k.owe.foldl (fun (k : Core) p => k.setQueue p.1 ((k.queue p.1).drop p.2)) k with owe := [] }

/-- n entries of a queue for an operation: re-read entries first, then those of the queue (R211, R219). `none` while
they are not there. -/
def Core.fetch (k : Core) (o : Op) (q n cyc : Nat) (slow : Bool) : Option (Core × Op × List QEntry) :=
  let todo := k.replay.getD q []
  let rb := k.rbuf.getD q []
  let mine := (rb.filter (fun e => e.tile == o.seq)).length + (todo.filter (fun p => p.1 == o.seq)).length
  let m := min n mine
  let r := rb.take m
  let l := ((k.queue q).drop (k.owes q)).take (n - m)
  if !k.queueTurn o q then none
  else if r.length = m ∧ r.all (fun e => decide (e.due ≤ cyc) && e.tile == o.seq) ∧ l.length = n - m ∧ l.all (fun e => decide (e.due ≤ cyc)) then
    let k1 := if m = 0 then k else { k with rbuf := k.rbuf.store [] q (rb.drop m), progress := true }
    let o1 := { o with
      firstSeq := if (o.tookN.getD q 0) = 0 ∧ n ≠ m then o.firstSeq.put q (k.taken q) else o.firstSeq
      tookN := o.tookN.store 0 q (o.tookN.getD q 0 + (n - m))
      took := o.took.store [] q (o.took.getD q [] ++ (r ++ l).map (fun e => e.addr)) }
    some (k1.give q (n - m) slow, o1, r ++ l)
  else none

/-- n entries for an operation, those its edge holds already first. -/
def Core.feed (k : Core) (o : Op) (q n cyc : Nat) (slow : Bool) : Option (Core × Op × List QEntry) :=
  let st := o.stage.getD q []
  let o1 := { o with stage := o.stage.store [] q (st.drop n) }
  if n ≤ st.length then some (k, o1, st.take n)
  else (k.fetch o1 q (n - st.length) cyc slow).map (fun x => (x.1, x.2.1, st ++ x.2.2))

/-- Up to m more entries of a block of n that an edge waits for (R211). -/
def Core.stageSome (k : Core) (o : Op) (q n cyc : Nat) : Nat → Core × Op
  | 0 => (k, o)
  | m + 1 =>
    let st := o.stage.getD q []
    if n ≤ st.length then (k, o)
    else match k.fetch o q 1 cyc false with
      | none => (k, o)
      | some (k1, o1, es) => Core.stageSome k1 { o1 with stage := o1.stage.store [] q (st ++ es) } q n cyc m

/-- An edge that waits for blocks takes what is there of them, up to four entries of each queue in a cycle (R211). -/
def Core.stageAll (k : Core) (o : Op) (l : List (Nat × Nat)) (cyc : Nat) : Core × Op :=
  if cyc < o.stageAt then (k, o)
  else
    let r := l.foldl (fun (s : Core × Op) p => s.1.stageSome s.2 p.1 p.2 cyc 4) (k, o)
    if (r.2.stage == o.stage) = true then (k, o) else (r.1, { r.2 with stageAt := cyc + 1 })

/-- An operation replaced, wherever it waits. -/
def Core.putOp (k : Core) (o : Op) : Core :=
  { k with issue := k.issue.map (fun x => if x.seq = o.seq then o else x)
           flight := k.flight.map (fun x => if x.seq = o.seq then o else x) }

/-- Entries by operation number, in order; for equal numbers those of the first list first. -/
def insBySeq : List (Nat × Nat) → Nat × Nat → List (Nat × Nat)
  | [], p => [p]
  | h :: t, p => if h.1 ≤ p.1 then h :: insBySeq t p else p :: h :: t

/-- The feeds of rolled-back operations supply again what each took (R219). -/
def Core.feedReplay (k : Core) (rolled : List Op) : Core :=
  [0, 1, 2, 3].foldl (fun k q =>
    let again := rolled.flatMap (fun o => (o.took.getD q []).map (fun a => (o.seq, a)))
    if again.isEmpty then k
    else
      let left := (k.rbuf.getD q []).map (fun e => (e.tile, e.addr)) ++ k.replay.getD q []
      let all := left.foldl insBySeq (again.foldl insBySeq [])
      { k with replay := k.replay.store [] q all, rbuf := k.rbuf.store [] q [] }) k

/-- Bytes of entries, and the indices of the poisoned ones. -/
def entryBytes (l : List QEntry) : List Byte := l.flatMap (fun e => padTo 64 0 e.data)
def entryBad (l : List QEntry) : List Nat := (List.range l.length).filter (fun i => ((l[i]?).map (fun e => e.poison)).getD false)

end Sys2Proof.Machine
end

