-- ==== Sys2Proof/Machine/GroupCalc.lean ====
section
/-! DEFINITION. One group of an operation as exact integers (02 R53–R60, 03 R100, R103–R106), its scales (04 R117,
R122, R123), its poison (07 R220, R129), and the checksum lane's comparisons (03 R107, R108). -/

namespace Sys2Proof.Machine

/-! ## Blocks (R151) -/

/-- Bytes of one a-row run of kg elements. -/
def aRowBytes (w kg : Nat) : Nat := (kg * (aFmt w).width + 7) / 8

/-- Entries of an a-block. -/
def aEntries (w kg rows : Nat) : Nat := (rows * aRowBytes w kg + 63) / 64

/-- Bytes of one b-line of n columns. -/
def bLineBytes (w n : Nat) : Nat := (n * (bFmt w).width + 7) / 8

/-- Entries of a b-block without the transposing buffer. -/
def bEntries (w kg n : Nat) : Nat := (kg * bLineBytes w n + 63) / 64

/-- Bytes of one transposing-buffer line: 64 elements of one or two bytes. -/
def tLineBytes (w : Nat) : Nat := if (bFmt w).width = 16 then 128 else 64

/-- Entries of one span of 64 transposing-buffer lines. -/
def spanEntries (w : Nat) : Nat := tLineBytes w

/-- Spans complete before K-step k. -/
def spansUpTo (k : Nat) : Nat := (k + 63) / 64

/-- Does a poisoned entry overlap bytes [a, a + n)? -/
def badBytes (bad : List Nat) (a n : Nat) : Bool := bad.any (fun b => decide (64 * b < a + n) && decide (a < 64 * b + 64))

/-- The b-values of a group as the plane sees them: a line of codes per K-step, and the poisoned columns. -/
structure BGroup where
  lines : List (List Nat)
  bad : List Nat
  deriving DecidableEq, Repr

/-- The b-lines of a block of n columns (R151, R220). -/
def bPlain (w kg n : Nat) (es : List QEntry) : BGroup :=
  let by_ := entryBytes es
  let lb := bLineBytes w n
  let wd := (bFmt w).width
  ⟨(List.range kg).map (fun k => unpackBits wd n (by_.drop (k * lb))),
    if (entryBad es).isEmpty then []
    else (List.range n).filter (fun j => (List.range kg).any (fun k => badBytes (entryBad es) (k * lb + j * wd / 8) ((wd + 7) / 8)))⟩

/-- The b-lines of K-steps [k0, k0 + kg) read as columns of the spans held, the first of them span `sp`
(R90–R92, R151). -/
def bTransposed (w k0 kg sp : Nat) (es : List QEntry) : BGroup :=
  let lb := tLineBytes w
  let eb := lb / 64
  let lines := chunksOf lb (entryBytes es)
  let at_ (k j : Nat) : Nat × Nat := ((k / 64 - sp) * 64 + j, k % 64)
  let code (k j : Nat) : Nat :=
    ofBytesLE (((lines.getD (at_ k j).1 []).drop ((at_ k j).2 * eb)).take eb) % 2 ^ (bFmt w).width
  ⟨(List.range kg).map (fun i => (List.range 64).map (code (k0 + i))),
    if (entryBad es).isEmpty then []
    else (List.range 64).filter (fun j => (List.range kg).any (fun i =>
      badBytes (entryBad es) ((at_ (k0 + i) j).1 * lb + (at_ (k0 + i) j).2 * eb) eb))⟩

/-! ## Sums -/

/-- The group register after all K-steps of a group (R58, R103). -/
def cellSum (cell : Nat) (as bs : List Int) : Int :=
  let ps := as.zip bs
  match cell with
  | 0 => ps.foldl (fun s p => s + p.1 * p.2) 0
  | 1 => ps.foldl (fun s p => s + (p.1 - p.2) * (p.1 - p.2)) 0
  | 2 => ps.foldl (fun s p => s + ((p.1 - p.2).natAbs : Int)) 0
  | 3 => ps.foldl (fun s p => if p.2 < p.1 then s + 1 else s) 0
  | 4 => ps.foldl (fun s p => min s (p.1 + p.2)) (2 ^ 43 - 1)
  | _ => ps.foldl (fun s p => max s (p.1 + p.2)) (-2 ^ 43)

/-- Exponent of the unit of a group sum (R58, R103). -/
def cellUnit (cell : Nat) (ea eb : Int) : Int :=
  match cell with
  | 0 => ea + eb
  | 1 => 2 * ea
  | 3 => 0
  | _ => ea

/-- The elements of one problem of a MAC-like operation; `srow` and `scol` give the scale factors of a row and of
a column, with their poison (R117, R129). -/
def rectElems (w : Nat) (r : Rect) (aRows : List (EdgeSeg × Bool)) (b : BGroup) (off : Nat) (srow scol : Nat → List Fp × Bool) : List (List (Option GElem)) × Bool :=
  let seg := edgeSeg (bFmt w) (b.lines.flatMap (fun l => (l.drop off).take r.cols))
  let vs := chunksOf r.cols seg.vals
  let bs := chunksOf r.cols seg.bad
  let cols := (List.range r.cols).map (fun j => (vs.map (fun l => l.getD j 0), bs.any (fun l => l.getD j false)))
  (aRows.zipIdx.map (fun a =>
      let (fr, pr) := srow (r.row + a.2)
      (cols.zipIdx.map (fun c =>
        let (fc, pc) := scol (r.col + c.2)
        some { s := cellSum (mCell w) a.1.1.vals c.1.1, u := cellUnit (mCell w) a.1.1.unit seg.unit,
               bad := a.1.1.bad.any id || c.1.2, pois := a.1.2 || b.bad.contains (off + c.2) || pr || pc,
               c := combinedScale (fr ++ fc) }))),
    seg.rnd)

/-- The two elements of each row of a REDUCE (R106). DESIGN CHOICE (log entry 124): in a packed REDUCE each problem's sums stand
in the first two columns of its rectangle, with those columns' scale entries. -/
def reduceElems (r : Rect) (aRows : List (EdgeSeg × Bool)) (srow scol : Nat → List Fp × Bool) : List (List (Option GElem)) :=
  aRows.zipIdx.map (fun a =>
    let (fr, pr) := srow (r.row + a.2)
    let (f0, p0) := scol r.col
    let (f1, p1) := scol (r.col + 1)
    let nb := a.1.1.bad.any id
    [some { s := a.1.1.vals.foldl (fun s v => s + v) 0, u := a.1.1.unit, bad := nb, pois := a.1.2 || pr || p0, c := combinedScale (fr ++ f0) },
     some { s := a.1.1.vals.foldl (fun s v => s + v * v) 0, u := 2 * a.1.1.unit, bad := nb, pois := a.1.2 || pr || p1,
            c := combinedScale (fr ++ fr ++ f1) }])

/-- Rows of Option elements placed at a rectangle of a matrix of rows × 64. -/
def placeRect (m : List (List (Option GElem))) (r : Rect) (es : List (List (Option GElem))) : List (List (Option GElem)) :=
  m.zipIdx.map (fun p =>
    if r.row ≤ p.2 ∧ p.2 < r.row + r.rows then
      let e := es.getD (p.2 - r.row) []
      p.1.take r.col ++ e ++ p.1.drop (r.col + e.length)
    else p.1)

/-- All elements of a group: a-bytes with their poisoned entries, b-lines, rectangles in problem order, scales.
The Bool tells whether a conversion lost something (R56). -/
def groupElems (w kg rows : Nat) (rs : List Rect) (aes : List QEntry) (b : BGroup) (srow scol : Nat → List Fp × Bool) : List (List (Option GElem)) × Bool :=
  let ab := entryBytes aes
  let rb := aRowBytes w kg
  let wd := (aFmt w).width
  let blank := List.replicate rows (List.replicate 64 (none : Option GElem))
  let r := rs.foldl (fun (acc : List (List (Option GElem)) × Bool × Nat × Nat) r =>
    let (m, rnd, ao, bo) := acc
    let aRows := (List.range r.rows).map (fun i =>
      (edgeSeg (aFmt w) (unpackBits wd kg (ab.drop ((ao + i) * rb))), badBytes (entryBad aes) ((ao + i) * rb) rb))
    let (es, rb') := if mCell w = 6 then (reduceElems r aRows srow scol, false) else rectElems w r aRows b bo srow scol
    (placeRect m r es, rnd || rb' || aRows.any (fun a => a.1.rnd), ao + r.rows, bo + r.cols)) (blank, false, 0, 0)
  (r.1, r.2.1)

/-! ## The checksum lane (R107, R108) -/

/-- A hardware error in the group register of a logical cell, or in a checker cell (row and half): difference
from the true value. -/
structure HwErr where
  row : Nat
  col : Nat
  delta : Int
  deriving DecidableEq, Repr

/-- Group registers with hardware errors in them, as 44-bit two's complement. -/
def withCellErrs (m : List (List (Option GElem))) (es : List HwErr) : List (List (Option GElem)) :=
  es.foldl (fun m e =>
    let row := m.getD e.row []
    match row.getD e.col none with
    | some x => setAt m e.row (setAt row e.col (some { x with s := signedN (wrapN (x.s + e.delta) 44) 44 }))
    | none => m) m

/-- One side of a comparison of logical row and half: the sum over the half, or the sampled column (R108); `none`
when no column of the half is in use. DESIGN CHOICE (log entry 125): of two problems side by side in a packed REDUCE the west
one's two sums are compared. -/
def halfSide (cell g : Nat) (row : List (Option GElem)) (h : Nat) : Option Int :=
  if cell = 6 then (((row.filterMap id).drop h).head?).map (fun x => x.s)
  else
    let part := ((row.drop (32 * h)).take 32)
    if cell ≤ 1 then (if (part.filterMap id).isEmpty then none else some ((part.filterMap id).foldl (fun s x => s + x.s) 0))
    else (part.getD (g % 32) none).map (fun x => x.s)

/-- A comparison that fails: row, half, row-half sum, checker value. -/
structure Mismatch where
  row : Nat
  half : Nat
  s : Int
  c : Int
  deriving DecidableEq, Repr

/-- The failing comparisons of a group, in order of logical row, half 0 before half 1 (R109). `m` is the true
group, `cells` and `lane` the hardware errors. -/
def comparisons (cell g : Nat) (m : List (List (Option GElem))) (cells lane : List HwErr) : List Mismatch :=
  let e := withCellErrs m cells
  (List.range m.length).flatMap (fun i => [0, 1].filterMap (fun h =>
    match halfSide cell g (m.getD i []) h, halfSide cell g (e.getD i []) h with
    | some c, some s =>
      let c' := (lane.filter (fun x => x.row == i && x.col == h)).foldl (fun a x => signedN (wrapN (a + x.delta) 50) 50) c
      if s = c' then none else some ⟨i, h, s, c'⟩
    | _, _ => none))

/-! ## Adding a group to a slot (R62, R66–R68, R105) -/

/-- One element after the boundary. -/
def addElem (cell : Nat) (e : Elem) : Option GElem → Elem
  | none => e
  | some x =>
    let n := if cell = 4 then minMaxUpdate false x.s x.c x.u x.bad e
      else if cell = 5 then minMaxUpdate true x.s x.c x.u x.bad e
      else accUpdate x.s x.c x.u x.bad e
    { n with poison := e.poison || x.pois }

/-- Flags that elements of a rectangle call for: bit 0 SAT, bit 1 NF. -/
def elemFlags (es : List Elem) : Nat :=
  b2n (es.any (fun e => e.st == .sat)) + 2 * b2n (es.any (fun e => e.st == .nf))

/-- Elements of logical rows of one pack unit (logical band × 2 + half). -/
def unitElems (rows : List (List Elem)) (u : Nat) : List Elem :=
  ((rows.drop (16 * (u / 2))).take 16).flatMap (fun r => (r.drop (32 * (u % 2))).take 32)

/-- The group added to one slot: rows of the group that lie on it, units it touches, whether a conversion lost
something. -/
def Slot.addGroup (s : Slot) (cell : Nat) (rows : List (List (Option GElem))) (us : List Nat) (rnd : Bool) : Slot :=
  let old := s.full64 rows.length
  let nu := (old.zip rows).map (fun p => (p.1.zip p.2).map (fun q => addElem cell q.1 q.2))
  let lng := s.cnt == 0xFFFFF
  let s1 := us.foldl (fun (s : Slot) u => s.flagUnits [u] (elemFlags (unitElems nu u) ||| (if rnd then 4 else 0) ||| (if lng then 8 else 0))) { s with rows := nu }
  { s1 with full := true, cnt := min (s.cnt + 1) 0xFFFFF }

end Sys2Proof.Machine
end

