-- ==== Sys2Proof/Machine/Rollback.lean ====
section
/-! DEFINITION. Rollback and check decisions (03 R84, R97, R109–R113, 12 R336–R342, 04 R128): what happens when a
group fails its check, when a scale skews, when a slot fails parity. -/

namespace Sys2Proof.Machine

/-- Planes an operation uses. -/
def Op.planes (o : Op) : List Nat := subPlanes (mPlane o.w)

/-- Two operations share a plane. -/
def Op.shares (a b : Op) : Bool := a.planes.any (fun p => b.planes.contains p)

/-- The operation of a number that a rollback starts from, and every later operation in its planes (R84). -/
def Core.rolledFrom (k : Core) (n : Nat) : List Op :=
  k.flight.foldl (fun acc o => if o.seq = n ∨ (n < o.seq ∧ o.t0.isSome ∧ acc.any o.shares) then acc ++ [o] else acc) []

/-- The run an operation's next injection is: that of the open decision when it is its operation (R336, R128). -/
def Core.nextRun (k : Core) (o : Op) : Nat :=
  match k.dec with
  | some x => if x.op = o.seq then x.run else 0
  | none => 0

/-- One operation rolled back: its slots restored, to be injected again from its first K-step (R84). -/
def Core.rollOp (k : Core) (o : Op) : Core :=
  (k.restoreOp o).setOp { o with
    t0 := none, inj := 0, grps := [], added := 0, edgeEnd := 0, run := k.nextRun o, rolls := o.rolls + 1,
    rowBlk := none, colBlk := none, preLeft := 0, laAt := none, tbAt := none, span := [], took := [], stage := [], entry := [],
    chainEnd := false }

/-- Rollback of a core's operations from number n; the edges wait for the shift paths in replay B (R112). -/
def Core.rollFrom (k : Core) (n cyc : Nat) : Core :=
  let l := k.rolledFrom n
  let k1 := { ((l.foldl Core.rollOp k).feedReplay l) with replayAt := cyc }
  let d := if l.any (fun o => k.nextRun o == 2) then 48 else 0
  (l.flatMap Op.planes).foldl (fun k p => k.setEdge p { (k.edge p) with next := cyc + d, held := none }) k1

/-- Smallest chain number of operations, 0 for none (R97). -/
def minChain (l : List Op) : Nat := l.foldl (fun m o => if o.cno = 0 then m else if m = 0 then o.cno else min m o.cno) 0

/-- Rollback on every other member of the chain (R97): those operations and their successors, and the groups on
the chain. -/
def Core.rollChain (k : Core) (cno cyc : Nat) : Core :=
  let k1 := { k with chainIn := k.chainIn.filter (fun g => decide (g.cno < cno)) }
  match k1.flight.find? (fun o => decide (cno ≤ o.cno)) with
  | some o => k1.rollFrom o.seq cyc
  | none => k1

/-- Operations that a rollback from operation n of core c takes, on every member of its chain. -/
def Dev.allRolled (d : Dev) (c n : Nat) : List Op :=
  let l := (d.core c).rolledFrom n
  let m := minChain l
  if m = 0 then l
  else l ++ ((d.chainOf c).filter (fun x => x != c)).flatMap (fun x =>
    match (d.core x).flight.find? (fun o => decide (m ≤ o.cno)) with
    | some o => (d.core x).rolledFrom o.seq
    | none => [])

/-- The rollback itself (R84, R97, R109). -/
def Dev.rollNow (d : Dev) (c n : Nat) : Dev :=
  let m := minChain ((d.core c).rolledFrom n)
  let d1 := (d.onCore c (fun k =>
    let k1 := k.rollFrom n d.cycle
    if m = 0 then k1 else { k1 with chainIn := k1.chainIn.filter (fun g => decide (g.cno < m)) })).inc (aPln c 0x114)
  if m = 0 then d1
  else ((d.chainOf c).filter (fun x => x != c)).foldl (fun d x => d.onCore x (fun k => k.rollChain m d.cycle)) d1

/-- A core stopped by its plane: fault record, streams FAULTED, operations dropped, its job stopped (R128, R338,
R340, R345). -/
def Dev.planeStop (d : Dev) (c : Nat) (o : Op) (code arg : Nat) : Dev :=
  ((d.faultRec c true 6 code o.pc arg 0).onCore c Core.jobStop).coreJobStop c code

/-- A precise HAZARD fault of a plane (R96, R126): the record names the word that issued the operation. -/
def Dev.planeFault (d : Dev) (c : Nat) (o : Op) (reason : Nat) : Dev :=
  let d1 := (d.faultRec c true 6 0x03 o.pc (hazArg reason 0 (mPlane o.w) (mSlot o.w)) 0).raise (aCctl c 0) 0
  (d1.onCore c (fun k => { k.dropOps with x := k.x.fault })).coreJobStop c 0x03

/-- CHECK event record of a decision (R338, R349). -/
def Dev.checkRecord (d : Dev) (c : Nat) (x : Decision) (outcome code : Nat) : Dev :=
  d.owlRecord { kind := 0, outcome := outcome, code := code, job := d.jobNo c, phys := c,
                pu := if outcome = 1 then x.unit else 0xF, group := min x.count 0xFFFFF, lrow := x.lrow,
                half := x.half, slot := x.slot, plane := x.plane }

/-- The open decision ends. -/
def Dev.endDec (d : Dev) (c : Nat) : Dev := d.onCore c (fun k => { k with dec := none })

/-- An UNRESOLVED decision (R338, R340, R342): record, job stop with the cause's code, fence of the core. -/
def Dev.unresolved (d : Dev) (c : Nat) (o : Op) (x : Decision) (code : Nat) : Dev :=
  (((d.checkRecord c x 3 code).endDec c).planeStop c o code 0).askFence c

/-- A rollback under R84, or the stop in place of a fifth one (R340). -/
def Dev.rollback (d : Dev) (c : Nat) (o : Op) (code arg : Nat) : Dev :=
  if (d.allRolled c o.seq).any (fun x => decide (4 ≤ x.rolls)) then
    match (d.core c).dec with
    | some x => d.unresolved c o x code
    | none => d.planeStop c o code arg
  else d.rollNow c o.seq

/-- A decision opens, and the rollback that follows is replay A, or replay B when the fence of the key's pack
unit is pending (R336, R341). -/
def Dev.openDec (d : Dev) (c : Nat) (o : Op) (x : Decision) : Dev :=
  let b := (d.core c).puPend.contains (16 * x.uplane + x.unit)
  let y := { x with run := if b then 2 else 1, rep := b }
  (d.onCore c (fun k => { k with dec := some y })).rollback c o 0x05 0

/-- The decision record that a failing comparison of group count n would open; its pack unit is the one on which the run
that failed computed the key (R336, R341). -/
def Dev.newDec (d : Dev) (c : Nat) (o : Op) (n : Nat) (m : Mismatch) : Decision :=
  let p := if mPlane o.w = 2 then (if m.row < d.rows c 0 then 0 else 1) else mPlane o.w
  let u := d.unitRan c (mPlane o.w) m.row m.half ((d.core c).slot (8 * p + mSlot o.w)).shift
  ⟨mPlane o.w, mSlot o.w, m.half, m.row, n, m.s, m.c, 1, false, o.seq, u.1, u.2⟩

/-- The report of failing comparisons (R109, R347): CHK_MM, counters, first-mismatch record. DESIGN CHOICE (log entry 122): of
several that fail at one boundary with VALID 0 the first is recorded, and MORE stays 0. -/
def Dev.noteMismatch (d : Dev) (c : Nat) (o : Op) (n : Nat) (ms : List Mismatch) : Dev :=
  match ms with
  | [] => d
  | m :: _ =>
    let d1 := ((d.raise (aPln c 0) 0).inc (aPln c 0x110) ms.length).owlEv 6 ms.length
    if d1.bit (aPln c 0x130) 31 then d1.putB (aPln c 0x130) 22 true
    else
      let put (d : Dev) (a v : Nat) : Dev := d.setReg (aPln c a) (BitVec.ofNat 32 v)
      put (put (put (put (put (put d1 0x130 (2 ^ 31 + mPlane o.w * 2 ^ 29 + mSlot o.w * 2 ^ 26 + 2 ^ 25 * m.half + 2 ^ 23 * o.run + m.row))
        0x134 (min n 0xFFFFF)) 0x138 (wrapN m.s 32)) 0x13C (wrapN (m.s / 2 ^ 32) 32)) 0x140 (wrapN m.c 32)) 0x144 (wrapN (m.c / 2 ^ 32) 32)

/-- A group added to the operation's slots (R62, R72). -/
def Dev.addGroup (d : Dev) (c : Nat) (o : Op) (g : Group) (rows : List (List (Option GElem))) : Dev :=
  let rs := d.rects c (mPlane o.w) (mPack o.w)
  let k := o.planes.foldl (fun (k : Core) p =>
    let key := 8 * p + mSlot o.w
    let part := (rows.drop (d.rowBase c (mPlane o.w) p)).take (d.rows c p)
    let us := if mPack o.w = 0 then List.range (d.rows c p / 8) else rs.flatMap rectUnits
    k.setSlot key ((k.slot key).addGroup (mCell o.w) part us g.rnd)) (d.core c)
  d.setCore c { (k.setOp { o with grps := o.grps.tail, added := o.added + 1 }) with progress := true }

/-- Is the group of an operation left unchecked: its slot is past group 2^20, or a lane is fenced (R68, R110,
R111, R339)? DESIGN CHOICE (log entry 121): a J operation with one plane's slot past it leaves the whole group unchecked. -/
def Dev.unchecked (d : Dev) (c : Nat) (o : Op) : Bool :=
  o.keys.any (fun key => bitN (((d.core c).slot key).flagsOf allUnits) 3)
    || o.planes.any (fun p => d.bit (aPln c 0x124) p || ((d.core c).edge p).laneOff)

/-- A checker lane the plane no longer acts on; its PLN_CHK_FENCE bit takes effect at the core's next epoch (R339). -/
def Dev.fenceLane (d : Dev) (c p : Nat) : Dev := d.onCore c (fun k => k.setEdge p { (k.edge p) with laneOff := true })

/-- The verdict on one group boundary: `n` the slot group count the group gives, `ms` the failing comparisons,
`rows` the group as the cells hold it (R109, R336–R340). -/
def Dev.verdict (d : Dev) (c : Nat) (o : Op) (g : Group) (n : Nat) (ms : List Mismatch) (rows : List (List (Option GElem))) : Dev :=
  let first (d : Dev) (l : List Mismatch) : Dev :=
    match l with
    | [] => d.addGroup c o g rows
    | m :: _ => d.openDec c o (d.newDec c o n m)
  match (d.core c).dec with
  | none => first d ms
  | some x =>
    if x.op ≠ o.seq then
      match ms with
      | [] => d.addGroup c o g rows
      | m :: _ =>
        let p := o.planes.headD 0
        d.onCore c (fun k => k.setEdge p { (k.edge p) with held := some (d.newDec c o n m) })
    else if n < x.count then
      if ms.isEmpty then d.addGroup c o g rows
      else if x.run = 1 then
        (d.onCore c (fun k => { k with dec := some { x with run := 2, rep := false } })).rollback c o 0x05 0
      else d.unresolved c o x 0x05
    else
      let km := ms.find? (fun m => m.row == x.lrow && m.half == x.half)
      let rest := ms.filter (fun m => !(m.row == x.lrow && m.half == x.half))
      match km with
      | none =>
        if x.run = 1 then first ((d.checkRecord c x 0 0x05).endDec c) rest
        else
          first (((d.checkRecord c x 1 0x05).endDec c).onCore c (fun k =>
            { k with puPend := setIns k.puPend (16 * x.uplane + x.unit) })) rest
      | some m =>
        let same := m.s == x.s0 && m.c == x.c0
        if x.run = 1 then
          (d.onCore c (fun k => { k with dec := some { x with run := 2, rep := same } })).rollback c o 0x05 0
        else if x.rep && same then
          ((((d.checkRecord c x 2 0x05).endDec c).fenceLane c x.uplane)).addGroup c o g rows
        else d.unresolved c o x 0x05

/-- A rollback's SCALE_SKEW record (R128, R197). -/
def Dev.skewRecord (d : Dev) (c : Nat) (o : Op) (side : Nat) : Dev :=
  (d.faultRec c true 6 0x02 o.pc (o.inj % 2 ^ 20 * 2 ^ 12 + 2 ^ 6 * side + mPlane o.w * 2 ^ 4 + mSlot o.w) 0).raise (aPln c 0) 1

/-- Every element of a slot marked poisoned. -/
def Slot.poisonAll (s : Slot) (rows : Nat) : Slot :=
  { s with rows := (s.full64 rows).map (fun r => r.map (fun e => { e with poison := true })) }

/-- Every slot that an operation writes marked poisoned (R128). -/
def Dev.poisonSlots (d : Dev) (c : Nat) (o : Op) : Dev :=
  o.planes.foldl (fun d p => d.onCore c (fun k =>
    k.setSlot (8 * p + mSlot o.w) ((k.slot (8 * p + mSlot o.w)).poisonAll (d.rows c p)))) d

/-- Scales out of step (R128): the slots are marked poisoned; the first time follow a rollback and replay, whose restore
clears the marks; the second time the slots stay poisoned and the job stops. -/
def Dev.skew (d : Dev) (c : Nat) (o : Op) (side : Nat) : Dev :=
  if o.skewed then
    let arg := o.inj % 2 ^ 20 * 2 ^ 12 + 2 ^ 6 * side + mPlane o.w * 2 ^ 4 + mSlot o.w
    ((d.raise (aPln c 0) 1).planeStop c o 0x02 arg).poisonSlots c o
  else
    let o1 := { o with skewed := true }
    let d1 := ((d.skewRecord c o side).onCore c (fun k => k.setOp o1)).poisonSlots c o1
    if (d1.allRolled c o.seq).any (fun x => decide (4 ≤ x.rolls)) then (d1.rollback c o1 0x02 0).poisonSlots c o1
    else d1.rollback c o1 0x02 0

end Sys2Proof.Machine
end

