-- ==== Sys2Proof/Machine/Plane.lean ====
section
/-! DEFINITION. What the product planes do between issue and retirement (03 R77–R97, 12 R336–R341, 14 R412–R416):
edge entry, scale blocks, injection, group boundaries, retirement, pauses, pack-unit fences. -/

namespace Sys2Proof.Machine

/-! ## Edge entry -/

/-- The next operation to enter the edge of a plane: a rolled-back one first, then the issue buffer's (R84, R150). -/
def Core.entering (k : Core) (p : Nat) : Option Op :=
  (k.flight.filter (fun o => o.t0.isNone) ++ k.issue).find? (fun o => o.planes.contains p)

/-- The operation that a plane's edge is injecting. -/
def Core.injecting (k : Core) (p : Nat) : Option Op :=
  k.flight.find? (fun o => o.planes.contains p && o.t0.isSome && decide (o.inj < mGroups o.w))

/-- Tokens of leave an operation needs: 0 within 2^20 cell-cycles (R412). -/
def Dev.leaveNeed (d : Dev) (c w : Nat) : Nat :=
  if d.planeCells c (mPlane w) * d.edgeCycles c w ≤ 2 ^ 20 then 0
  else
    let col := if mPace w = 1 ∧ mCell w = 0 then 0 else if mPace w = 4 then 2 else 1
    (([[14, 13, 8], [28, 27, 16], [42, 40, 24]].getD (mPlane w) []).getD col 0)

/-- Is an operation one whose group an open decision judges, on its core or along its chain (R97, R191)? -/
def Dev.deciding (d : Dev) (c : Nat) (o : Op) : Bool :=
  (if o.cno = 0 then [c] else d.chainOf c).any (fun m => match (d.core m).dec with
    | some x => (d.core m).flight.any (fun y => y.seq == x.op && (if m = c then y.seq == o.seq else y.cno == o.cno))
    | none => false)

/-- An edge is stopped for a save (R191): an operation that an open decision judges runs its replays, and a chain member what
has been sent to it. -/
def Dev.edgeStopped (d : Dev) (c : Nat) (o : Op) : Bool :=
  (d.core c).stopping && !d.deciding c o && !((d.core c).chainLag && mBsrc o.w == 1)

/-- Is an edge free: it injects nothing, and its last K-step is past (R80)? -/
def Core.edgeFree (k : Core) (p cyc : Nat) : Bool := (k.injecting p).isNone && decide ((k.edge p).next ≤ cyc)

/-- Does another operation hold the transposing buffer, up to the read of its last column (R90)? -/
def Core.bufferHeld (k : Core) (o : Op) (cyc : Nat) : Bool :=
  k.flight.any (fun x => x.seq != o.seq && mTbuf x.w && x.t0.isSome && (decide (x.inj < mGroups x.w) || decide (cyc < x.edgeEnd)))

/-- Held under R77, R83, R90 or R184: the waits that PLN_EDGE_WAIT_CNT counts. -/
def Core.entryHeld (k : Core) (o : Op) (cyc : Nat) : Bool :=
  (mPlane o.w == 2 && o.planes.any (fun p => !k.edgeFree p cyc))
  || k.ops.any (fun x => decide (x.seq < o.seq) && x.keys.any (fun key => o.keys.contains key))
  || (mTbuf o.w && k.bufferHeld o cyc)
  || o.keys.any k.drainHolds

/-- Every condition of edge entry but leave (R77, R80, R83, R90, R150, R184, R340, R172). -/
def Dev.mayEnter (d : Dev) (c p : Nat) (o : Op) : Bool :=
  let k := d.core c
  o.planes.all (fun q => (k.entering q == some o) && k.edgeFree q d.cycle && (k.edge q).held.isNone)
  && !(k.edge (mPlane o.w)).paused && !(k.edge (mPlane o.w)).revoked
  && !k.entryHeld o d.cycle && !d.edgeStopped c o && !k.inReset && decide (o.cyc + 4 ≤ d.cycle) && o.planes.contains p

/-- Bytes of one preload record (R151). -/
def preBytes (w : Nat) : Nat := [0, 256, 128, 512].getD (mPre w) 0

/-- One preload value (R65): FP32, BF16 or a pair. -/
def preElem (kind v : Nat) : Elem :=
  if kind = 3 then
    let a := f32 (BitVec.ofNat 32 v)
    let b := f32 (BitVec.ofNat 32 (v / 2 ^ 32))
    if a.isFin && b.isFin then splitSum (a.dy.add b.dy) false else ({} : Elem).toNf
  else
    let a := if kind = 1 then fp32.decode v else bf16.decode v
    if a.isFin then { head := if a.isZero then 0 else toF32 a } else ({} : Elem).toNf

/-- The elements of one preload record (R65, R151, R220). -/
def preRow (w : Nat) (es : List QEntry) : List Elem :=
  let wd := preBytes w / 8
  (unpackBits wd 64 (entryBytes es)).zipIdx.map (fun p =>
    { (preElem (mPre w) p.1) with poison := badBytes (entryBad es) (p.2 * wd / 8) (wd / 8) })

/-- What an opened element holds without preload (R64, R105). -/
def openElem (w : Nat) : Elem :=
  if mCell w = 4 then { head := 0x7F7FFFFF } else if mCell w = 5 then { head := 0xFF7FFFFF } else {}

/-- Does a cell lie in one of some rectangles? -/
def inRects (rs : List Rect) (r j : Nat) : Bool :=
  rs.any (fun x => decide (x.row ≤ r ∧ r < x.row + x.rows ∧ x.col ≤ j ∧ j < x.col + x.cols))

/-- A slot of n rows on some bands opened by an operation on the rectangles `rs` (R64, R100, R105, R115). -/
def Slot.opened (s : Slot) (w n : Nat) (bands : List Nat) (rs : List Rect) : Slot :=
  { s with full := true, uf := [], cnt := 0, shift := false, stale := false, geo := n, bands := bands,
           rows := (List.range n).map (fun r => (List.range 64).map (fun j => if inRects rs r j then openElem w else s.elem r j)) }

/-- One preload row written to a slot, with the flags its elements call for (R65, R66, R89). -/
def Slot.loadRow (s : Slot) (rs : List Rect) (r : Nat) (es : List Elem) : Slot :=
  let row := (List.range 64).map (fun j => if inRects rs r j then es.getD j {} else s.elem r j)
  let fl (h : Nat) : Nat := elemFlags (((List.range 64).filter (fun j => decide (j / 32 = h) && inRects rs r j)).map (fun j => es.getD j {}))
  let s1 := { s with rows := setAt (padTo (max s.rows.length (r + 1)) [] s.rows) r row }
  (s1.flagUnits [2 * (r / 16)] (fl 0)).flagUnits [2 * (r / 16) + 1] (fl 1)

/-- The rectangles of an operation on one plane. -/
def Dev.opRects (d : Dev) (c : Nat) (o : Op) (p : Nat) : List Rect :=
  if mPack o.w = 0 then [⟨0, 0, d.rows c p, 0, 64⟩] else d.rects c (mPlane o.w) (mPack o.w)

/-- Has an operation an a-operand, or a b-operand, whose unit the look-ahead forms (R55, R81)? -/
def Op.aDyn (o : Op) : Bool := (aFmt o.w).fixedUnit.isNone
def Op.bDyn (o : Op) : Bool := (bFmt o.w).fixedUnit.isNone && decide (mCell o.w ≠ 6)

/-- The cycle of the first K-step of an operation that enters its edge now: look-ahead and turnaround have proceeded since
their inputs and resources allowed it, pair preload starts now, and they overlap, but for a b-look-ahead from the buffer
(R81, R89, R92, R492). DEDUCED (log entry 132). -/
def Dev.firstStep (d : Dev) (c : Nat) (o : Op) : Nat :=
  let now := d.cycle
  let la := d.edgeSpan c o.w (mKsteps o.w 0)
  let l := o.laAt.getD now + la
  let t := o.tbAt.getD now + 64
  let a := if o.aDyn || (o.bDyn && !mTbuf o.w) then l else now
  let b := if !mTbuf o.w then now else if o.bDyn then t + la else t
  max (max now a) (max b (if mPre o.w = 3 then now + [48, 96, 144].getD (mPlane o.w) 0 else now))

/-- The operation enters its edge: entry copies, then the opening (R64, R82, R87). DESIGN CHOICE (log entry 127): a slot that is
SHIFT already runs its replay B, and what follows, rotated by one band and one half as before. -/
def Dev.enterEdge (d : Dev) (c : Nat) (o : Op) : Dev :=
  let k := d.core c
  let o1 := { o with
    t0 := some d.cycle
    entry := o.keys.map (fun key => (key, k.slot key))
    preLeft := if mPre o.w = 0 then 0 else d.rows c (mPlane o.w) }
  let k1 := o.planes.foldl (fun (k : Core) p =>
    let key := 8 * p + mSlot o.w
    let s := k.slot key
    let n := d.rows c p
    let s1 := if mOpen o.w then s.opened o.w n (d.bands c p) (d.opRects c o p) else { s with full := true, geo := n, bands := d.bands c p }
    (k.setSlot key { s1 with shift := s1.shift || o.run == 2 }).setEdge p
      { (k.edge p) with next := d.firstStep c o, busyAt := d.cycle }) k
  let flight := if k.flight.any (fun x => x.seq == o.seq) then k1.flight.map (fun x => if x.seq = o.seq then o1 else x) else k1.flight ++ [o1]
  d.setCore c { k1 with flight := flight, issue := k1.issue.filter (fun x => x.seq != o.seq), progress := true }

/-- One cycle of an operation's preload: its edge takes up to four entries, and a whole record is written to its plane row
(R65, R89, R151, R211, R220). -/
def Dev.preStep (d : Dev) (c : Nat) (o : Op) : Dev :=
  if o.t0.isNone ∨ o.preLeft = 0 then d
  else
    let q := mPq o.w
    let n := preBytes o.w / 64
    let (k1, o1) := (d.core c).stageAll o [(q, n)] d.cycle
    let st := o1.stage.getD q []
    if st.length < n then d.setCore c (k1.putOp o1)
    else
      let row := preRow o.w (st.take n)
      let r := d.rows c (mPlane o.w) - o.preLeft
      let p := if mPlane o.w = 2 then (if r < d.rows c 0 then 0 else 1) else mPlane o.w
      let key := 8 * p + mSlot o.w
      let k2 := k1.putOp { o1 with stage := o1.stage.store [] q (st.drop n), preLeft := o.preLeft - 1 }
      let d1 := d.setCore c (k2.setSlot key ((k2.slot key).loadRow (d.opRects c o p) (r - d.rowBase c (mPlane o.w) p) row))
      if row.any (fun x => x.poison) then d1.raise (aPln c 0) 2 else d1

/-- Preloads of a core in one cycle. -/
def Dev.preTick (d : Dev) (c : Nat) : Dev := (d.core c).flight.foldl (fun d o => d.preStep c o) d

/-- OP_EDGE_ENTER: entry of the next operation of a plane, after its leave (R83, R115, R412). -/
def Dev.opEdgeEnter (d : Dev) (c p : Nat) : Dev :=
  match (d.core c).entering p with
  | none => d
  | some o =>
    if !d.mayEnter c p o then d
    else
      let pl := mPlane o.w
      let need := d.leaveNeed c o.w
      let e := (d.core c).edge pl
      if e.tokens < need then
        (if d.leaveQ.any (fun r => r.core == c && r.plane == pl) then d
         else { d with leaveQ := d.leaveQ ++ [{ core := c, plane := pl, tokens := need - e.tokens, tick := d.tick }] })
      else if !mOpen o.w && o.keys.any (fun key => ((d.core c).slot key).stale) then d.planeFault c o 7
      else d.enterEdge c o

/-! ## Scale blocks (R124–R129) -/

/-- The header of a scale block: KIND, COUNT, TAG (R124). -/
def blkKind (l : List Byte) : Nat := bitsN (ofBytesLE (l.take 8)) 11 8
def blkCount (l : List Byte) : Nat := bitsN (ofBytesLE (l.take 8)) 31 16
def blkTag (l : List Byte) : Nat := bitsN (ofBytesLE (l.take 8)) 5 0

/-- Entries of 64 bytes of a scale block (R124). DESIGN CHOICE (log entry 130): a block whose KIND or COUNT is invalid is as long
as its COUNT of entries says, each of two bytes for KIND 1 and of one byte for every other KIND. -/
def blkEntries (l : List Byte) : Nat := (8 + (if blkKind l = 1 then 2 else 1) * blkCount l + 63) / 64

/-- A whole scale block from a queue, or `none` while it is not there; it leaves the queue four entries a cycle (R211). -/
def Core.takeBlock (k : Core) (o : Op) (q cyc : Nat) : Option (Core × Op × List QEntry) :=
  match k.feed o q 1 cyc true with
  | none => none
  | some (k1, o1, e1) =>
    match k1.feed o1 q (blkEntries (entryBytes e1) - 1) cyc true with
    | none => none
    | some (k2, o2, e2) => some (k2, o2, e1 ++ e2)

/-- Entries of a scale block that an edge waits for: one, until the header is there. -/
def Op.blockNeed (o : Op) (q : Nat) : Nat × Nat :=
  (q, match o.stage.getD q [] with
    | [] => 1
    | e :: _ => blkEntries (entryBytes [e]))

/-- Values of a block of n entries of sz bytes; a block that arrives poisoned poisons every factor (R129). -/
def blkVals (sz n : Nat) (es : List QEntry) : ScaleBlock :=
  ⟨(chunksOf sz (((entryBytes es).drop 8).take (sz * n))).map ofBytesLE,
    if (entryBad es).isEmpty then [] else List.range n, blkTag (entryBytes es)⟩

/-- The easternmost column in use, plus one (R126). -/
def Dev.colsUsed (d : Dev) (c w : Nat) : Nat :=
  (d.rects c (mPlane w) (mPack w)).foldl (fun m r => max m (if mCell w = 6 then r.col + 2 else r.col + r.cols)) 0

/-- The plane rows in use, as the highest logical row in use plus one. -/
def Dev.rowsUsed (d : Dev) (c w : Nat) : Nat :=
  (d.rects c (mPlane w) (mPack w)).foldl (fun m r => max m (r.row + r.rows)) 0

/-- May the edge of a plane take up the next group of an operation in this cycle (R80, R88, R340)? -/
def Dev.edgeReady (d : Dev) (c : Nat) (o : Op) : Bool :=
  let k := d.core c
  o.planes.all (fun p => decide ((k.edge p).next ≤ d.cycle) && (k.edge p).held.isNone)
  && !(k.edge (mPlane o.w)).paused && !(k.edge (mPlane o.w)).revoked && !d.edgeStopped c o && !k.inReset

/-- Is the column-scale block of an operation taken from the chain (R127)? -/
def Dev.colFromChain (d : Dev) (c : Nat) (o : Op) : Bool := mBsrc o.w == 1 && decide (2 ≤ d.chainMode c)

/-- Checks of one block: the kind and count it must have; `none` when it passes (R126). -/
def blkWrong (l : List Byte) (kind need : Nat) : Bool := blkKind l != kind || decide (blkCount l < need)

/-- An operation's edge takes what is there of blocks that it waits for. -/
def Dev.stageOp (d : Dev) (c : Nat) (o : Op) (l : List (Nat × Nat)) : Dev :=
  let (k1, o1) := (d.core c).stageAll o l d.cycle
  d.setCore c (k1.putOp o1)

/-- SCALE_BLOCK_TAKE: the blocks of the next group are taken and checked (R126–R128). DESIGN CHOICE (log entries 128 and 129): of
two wrong tags side 0 is recorded, and a wrong KIND or COUNT faults before any tag is compared. -/
def Dev.scaleBlockTake (d : Dev) (c p : Nat) : Dev :=
  match (d.core c).injecting p with
  | none => d
  | some o =>
    let needR := mRsrc o.w && o.rowBlk.isNone
    let needC := mCsrc o.w == 2 && o.colBlk.isNone && !d.colFromChain c o
    let r := if needR then (d.core c).takeBlock o (mRq o.w) d.cycle else some (d.core c, o, [])
    if !d.edgeReady c o || !(needR || needC) then d
    else match r with
      | none => d.stageOp c o [o.blockNeed (mRq o.w)]
      | some (k1, o1, re) =>
        match (if needC then k1.takeBlock o1 (mCq o.w) d.cycle else some (k1, o1, [])) with
        | none => d.stageOp c o [o.blockNeed (mCq o.w)]
        | some (k2, o2, ce) =>
          let rl := entryBytes re
          let cl := entryBytes ce
          let tag := (mTag o.w + o.inj) % 64
          let o3 := { o2 with rowBlk := if needR then some (blkVals 2 (blkCount rl) re) else o2.rowBlk
                              colBlk := if needC then some (blkVals 1 (blkCount cl) ce) else o2.colBlk }
          let d1 := d.setCore c (k2.setOp o3)
          let bad := (re ++ ce).any (fun e => e.poison)
          let d2 := if bad then d1.raise (aPln c 0) 2 else d1
          if (needR && blkWrong rl 1 (d.rowsUsed c o.w)) || (needC && blkWrong cl 2 (d.colsUsed c o.w)) then d2.planeFault c o3 5
          else if needR ∧ blkTag rl ≠ tag then d2.skew c o3 0
          else if needC ∧ blkTag cl ≠ tag then d2.skew c o3 1
          else d2

/-! ## Injection (R78, R91, R94–R96, R125, R211) -/

/-- Row factor of a logical row (R117). -/
def rowFactor (o : Op) (i : Nat) : List Fp × Bool :=
  match o.rowBlk with
  | some b => ([fp16.decode (b.vals.getD i 0)], b.bad.contains i)
  | none => ([], false)

/-- Register of entry j of a column scale bank; J uses the F-plane banks (R117). -/
def bankReg (c plane bank j : Nat) : Nat := aPln c ((if plane = 1 then 0xC00 else 0x800) + 0x100 * bank + 4 * j)

/-- Key of a bank entry's poison. -/
def bankKey (plane bank j : Nat) : Nat := (if plane = 1 then 256 else 0) + 64 * bank + j

/-- Column factor of a plane column (R117). -/
def Dev.colFactor (d : Dev) (c : Nat) (o : Op) (j : Nat) : List Fp × Bool :=
  if mCsrc o.w = 0 then ([], false)
  else
    let b := f32 (d.reg (bankReg c (mPlane o.w) (mCbank o.w) j))
    let pb := (d.core c).bankBad.contains (bankKey (mPlane o.w) (mCbank o.w) j)
    match o.colBlk with
    | some x => if mCsrc o.w = 2 then ([Fmt.decode Machine.e4m3 (x.vals.getD j 0), b], pb || x.bad.contains j) else ([b], pb)
    | none => ([b], pb)

/-- What an edge has taken for one group. -/
structure Taken where
  k : Core
  o : Op
  a : List QEntry
  b : BGroup
  chain : Option ChainGroup

/-- The a-block of the next group, when it is there. -/
def Dev.takeA (d : Dev) (c : Nat) (k : Core) (o : Op) : Option (Core × Op × List QEntry) :=
  let n := aEntries o.w (mKsteps o.w o.inj) (sumRows (d.rects c (mPlane o.w) (mPack o.w)))
  k.feed o (mAq o.w) n d.cycle true

/-- The b-lines of the next group, when they are there: from the queue, through the transposing buffer, or from the
chain. -/
def Dev.takeB (d : Dev) (c : Nat) (k : Core) (o : Op) : Option Taken :=
  let g := o.inj
  let kg := mKsteps o.w g
  let n := sumCols (d.rects c (mPlane o.w) (mPack o.w))
  if mBsrc o.w = 2 then some ⟨k, o, [], ⟨[], []⟩, none⟩
  else if mBsrc o.w = 1 then
    match k.chainIn with
    | [] => none
    | x :: t =>
      if x.cno = o.cno ∧ x.due ≤ d.cycle then
        let back := d.cycle + linkCycles c ((d.chainWest c).getD c)
        let owed := (k.chainOwed.filter (fun p => decide (d.cycle < p.2))) ++ [(min 64 x.lines.length, back)]
        some ⟨{ k with chainIn := t, chainOwed := owed, progress := true }, o, [], ⟨x.lines, x.bad⟩, some x⟩
      else none
  else if mTbuf o.w then
    let k0 := g * mG o.w
    let s0 := spansUpTo k0
    let s1 := spansUpTo (k0 + kg)
    match k.feed o (mBq o.w) ((s1 - s0) * spanEntries o.w) d.cycle true with
    | none => none
    | some (k1, o1, es) =>
      let held := if k0 % 64 = 0 then es else o1.span ++ es
      let sp := k0 / 64
      let keep := held.drop (held.length - spanEntries o.w)
      some ⟨k1, { o1 with span := keep }, [], bTransposed o.w k0 kg sp held, none⟩
  else
    match k.feed o (mBq o.w) (bEntries o.w kg n) d.cycle true with
    | none => none
    | some (k1, o1, es) => some ⟨k1, o1, [], bPlain o.w kg n es, none⟩

/-- The core that this core's b-rows go to, when its operation forwards them (R93). -/
def Dev.forwardsTo (d : Dev) (c : Nat) (o : Op) : Option Nat :=
  if mCell o.w = 6 then none else if d.chainMode c = 1 ∨ d.chainMode c = 2 then d.chainEast c else none

/-- b-rows of a chain input's buffer that are on their way, held, or taken with their credits not back (R95). DESIGN CHOICE (log
entry 133): a group's b-rows move as one, and one of more than 64 counts as 64. -/
def Dev.chainHeld (d : Dev) (x : Nat) : Nat :=
  (d.core x).chainIn.foldl (fun n g => n + min 64 g.lines.length) 0
    + ((d.core x).chainOwed.filter (fun p => decide (d.cycle < p.2))).foldl (fun n p => n + p.1) 0

/-- Have the credits of the downstream chain input room for n more b-rows (R95)? -/
def Dev.chainRoom (d : Dev) (x n : Nat) : Bool := decide (d.chainHeld x + min 64 n ≤ 64)

/-- The next group of a plane's edge with all of its data at hand: R95, R125, R211. -/
def Dev.injectPlan (d : Dev) (c p : Nat) : Option Taken :=
  match (d.core c).injecting p with
  | none => none
  | some o =>
    let scales := (!mRsrc o.w || o.rowBlk.isSome) && (mCsrc o.w != 2 || o.colBlk.isSome || d.colFromChain c o)
    let room := match d.forwardsTo c o with
      | some x => d.chainRoom x (mKsteps o.w o.inj)
      | none => true
    if !d.edgeReady c o || !scales || !room then none
    else
      match d.takeA c (d.core c) o with
      | none => none
      | some (k1, o1, aes) =>
        match d.takeB c k1 o1 with
        | none => none
        | some t => some { t with a := aes }

/-- A column-scale block carried by the chain with the first b-row of its group (R127). -/
def chainCol (o : Op) (b : Option ScaleBlock) : Option (List Byte × Bool × Nat) :=
  match b with
  | some x => if mCsrc o.w = 2 then some (x.vals.map (BitVec.ofNat 8), !x.bad.isEmpty, x.tag) else none
  | none => none

/-- The group that a START core sends east, or that a PASS core sends on as it came (R93, R94, R96, R127). -/
def Dev.chainNext (d : Dev) (c x : Nat) (t : Taken) (o : Op) : ChainGroup :=
  let due := d.cycle + linkCycles c x
  match t.chain with
  | some g => { g with due := due }
  | none => ⟨o.cno, o.inj, t.b.lines, t.b.bad, (mTag o.w + o.inj) % 64, decide (o.inj + 1 = mGroups o.w), chainCol o o.colBlk, due⟩

/-- The group enters the edge: its exact sums are formed, the edge is busy for its cycles, and a START or PASS core
forwards its b-rows (R78, R94, R96). -/
def Dev.injectApply (d : Dev) (c : Nat) (t : Taken) : Dev :=
  let o := t.o
  let g := o.inj
  let kg := mKsteps o.w g
  let lastG := decide (g + 1 = mGroups o.w)
  let rs := d.rects c (mPlane o.w) (mPack o.w)
  let o0 := match t.chain with
    | some x => (match x.col with
      | some (l, bad, tag) => if mCsrc o.w = 2 then { o with colBlk := some ⟨l.map (fun b => b.toNat), if bad then List.range l.length else [], tag⟩ } else o
      | none => o)
    | none => o
  let (rows, rnd) := groupElems o.w kg (d.rows c (mPlane o.w)) rs t.a t.b (rowFactor o0) (d.colFactor c o0)
  let len := if lastG then d.edgeSpan c o.w (kg - 1) + 1 else d.edgeSpan c o.w kg
  let o1 := { o0 with inj := g + 1, edgeEnd := d.cycle + len, rowBlk := none, colBlk := none,
                      grps := o0.grps ++ [⟨g, rows, rnd, d.cycle, len⟩],
                      chainEnd := o0.chainEnd || (t.chain.map (fun x => x.last)).getD false }
  let k1 := o.planes.foldl (fun (k : Core) p => k.setEdge p { (k.edge p) with next := d.cycle + len, busyAt := d.cycle + len }) (t.k.setOp o1)
  let d1 := d.setCore c { k1 with progress := true }
  let pois := (entryBad t.a) ≠ [] ∨ t.b.bad ≠ []
  let d2 := if pois then d1.raise (aPln c 0) 2 else d1
  match d.forwardsTo c o with
  | none => d2
  | some x => d2.onCore x (fun k => { k with chainIn := k.chainIn ++ [d.chainNext c x t o0], progress := true })

/-- A member's K count and the END mark disagree (R96). -/
def chainWrong (t : Taken) : Bool :=
  match t.chain with
  | none => false
  | some x => x.last != decide (t.o.inj + 1 = mGroups t.o.w) || decide (x.lines.length ≠ mKsteps t.o.w t.o.inj)

/-- The TAG of the column-scale block on the chain is not that of the chain data (R127). -/
def chainSkewed (t : Taken) : Bool :=
  match t.chain with
  | none => false
  | some x => mCsrc t.o.w == 2 && (match x.col with
    | some b => b.2.2 != x.tag
    | none => false)

/-- Entries of the next group's blocks by queue. -/
def Dev.blockNeeds (d : Dev) (c : Nat) (o : Op) : List (Nat × Nat) :=
  let kg := mKsteps o.w o.inj
  let k0 := o.inj * mG o.w
  let rs := d.rects c (mPlane o.w) (mPack o.w)
  let na := aEntries o.w kg (sumRows rs)
  let nb := if mBsrc o.w ≠ 0 then 0
    else if mTbuf o.w then (spansUpTo (k0 + kg) - spansUpTo k0) * spanEntries o.w else bEntries o.w kg (sumCols rs)
  if nb = 0 then [(mAq o.w, na)] else if mAq o.w = mBq o.w then [(mAq o.w, na + nb)] else [(mAq o.w, na), (mBq o.w, nb)]

/-- Do the inputs that an operation's first group waits for stand ready (R492)? -/
def Dev.inputsThere (d : Dev) (c : Nat) (o : Op) (a b : Bool) : Bool :=
  (!a || (d.takeA c (d.core c) o).isSome) && (!b || (d.takeB c (d.core c) o).isSome)

/-- The delays of the next operation of a plane proceed from this cycle on if they may (R81, R92, R492). -/
def Dev.delayMark (d : Dev) (c p : Nat) : Dev :=
  match (d.core c).entering p with
  | none => d
  | some o =>
    if o.planes.head? ≠ some p ∨ d.cycle < o.cyc + 4 then d
    else
      let la := o.laAt.isNone && (o.aDyn || o.bDyn) && d.inputsThere c o o.aDyn (o.bDyn && !mTbuf o.w)
      let tb := o.tbAt.isNone && mTbuf o.w && !(d.core c).bufferHeld o d.cycle && d.inputsThere c o false true
      if !la && !tb then d
      else d.onCore c (fun k => k.putOp { o with laAt := if la then some d.cycle else o.laAt, tbAt := if tb then some d.cycle else o.tbAt })

/-- GROUP_INJECT; an edge that waits for entries takes those that are there (R211). -/
def Dev.groupInject (d : Dev) (c p : Nat) : Dev :=
  match d.injectPlan c p with
  | none =>
    match (d.core c).injecting p with
    | some o =>
      if d.edgeReady c o && (!mRsrc o.w || o.rowBlk.isSome) && (mCsrc o.w != 2 || o.colBlk.isSome || d.colFromChain c o)
        then d.stageOp c o (d.blockNeeds c o) else d
    | none => d
  | some t =>
    if chainWrong t then ((d.setCore c (t.k.setOp t.o)).raise (aPln c 0) 4).planeFault c t.o 4
    else if chainSkewed t then (d.setCore c (t.k.setOp t.o)).skew c t.o 1
    else d.injectApply c t

/-! ## Group boundary and retirement -/

/-- The operation of a plane whose oldest injected group is next to be added, once every cell has formed it (R79):
no earlier operation that shares a plane has groups left to add. -/
def Dev.boundaryPlan (d : Dev) (c p : Nat) : Option (Op × Group) :=
  let k := d.core c
  match k.flight.find? (fun o => o.planes.contains p && decide (o.added < mGroups o.w)) with
  | none => none
  | some o =>
    match o.grps with
    | [] => none
    | g :: _ =>
      if o.planes.all (fun q => (k.edge q).held.isNone
            && ((k.flight.find? (fun x => x.planes.contains q && decide (x.added < mGroups x.w))).map (fun x => x.seq) == some o.seq))
          && o.preLeft == 0 && decide (g.cyc + g.len + d.lastCell c o.w ≤ d.cycle) then some (o, g) else none

/-- Group count that the next group of an operation's slot gives, not saturated (R68, R336). DESIGN CHOICE (log entry 123): of a
J operation the F-plane slot's. -/
def Core.nextCount (k : Core) (o : Op) : Nat :=
  let s := k.slot (o.keys.headD 0)
  if bitN (s.flagsOf allUnits) 3 then 2 ^ 20 + 1 else s.cnt + 1

/-- GROUP_BOUNDARY: `cells` and `lane` are the hardware's errors in group registers and checker cells. -/
def Dev.groupBoundary (d : Dev) (c p : Nat) (cells lane : List HwErr) : Dev :=
  match d.boundaryPlan c p with
  | none => d
  | some (o, g) =>
    let held := withCellErrs g.rows cells
    if d.unchecked c o then (d.inc (aPln c 0x118)).addGroup c o g held
    else
      let ms := comparisons (mCell o.w) g.g g.rows cells lane
      let n := (d.core c).nextCount o
      (d.noteMismatch c o n ms).verdict c o g n ms held

/-- DECISION_OPEN: a plane that waits for the open decision to end opens its own (R340). -/
def Dev.decisionOpen (d : Dev) (c p : Nat) : Dev :=
  let k := d.core c
  match k.dec, (k.edge p).held with
  | none, some x =>
    match k.flight.find? (fun o => o.seq == x.op) with
    | some o => (d.onCore c (fun k => k.setEdge p { (k.edge p) with held := none })).openDec c o x
    | none => d.onCore c (fun k => k.setEdge p { (k.edge p) with held := none })
  | _, _ => d

/-- Every edge of the planes of an operation moved on by nothing: the operation in flight that writes a slot. -/
def Core.writerOf (k : Core) (key : Nat) : Option Op := k.flight.find? (fun o => o.keys.contains key && o.t0.isSome)

/-- One element of a slot marked poisoned. -/
def Slot.poisonAt (s : Slot) (r j : Nat) : Slot :=
  let row := setAt (padTo 64 {} (s.rows.getD r [])) j { (s.elem r j) with poison := true }
  { s with rows := setAt (padTo (max s.rows.length (r + 1)) [] s.rows) r row }

/-- SLOT_PARITY_ERROR: parity of an element of slot storage, or of an entry copy, is wrong (R85, R340). -/
def Dev.slotParity (d : Dev) (c p slot : Nat) (copy : Bool) (r j : Nat) : Dev :=
  let key := 8 * p + slot
  match (d.core c).writerOf key with
  | some o =>
    if copy then d.onCore c (fun k => k.setOp { o with entry := o.entry.map (fun q => if q.1 = key then (q.1, q.2.poisonAt r j) else q) })
    else d.rollback c o 0x09 0
  | none => if copy then d else d.onCore c (fun k => k.setSlot key ((k.slot key).poisonAt r j))

/-- The oldest operation of a plane, when it may retire (R83, R97). -/
def Dev.retirePlan (d : Dev) (c p : Nat) : Option Op :=
  let k := d.core c
  match k.flight.find? (fun o => o.planes.contains p) with
  | none => none
  | some o =>
    let endDone := o.cno = 0 ∨ (d.chainOf c).getLastD c = c ∨
      (let e := d.core ((d.chainOf c).getLastD c)
       decide (o.cno ≤ e.chainNo) && !e.ops.any (fun x => x.cno == o.cno))
    if o.added = mGroups o.w ∧ o.planes.all (fun q => (k.flight.find? (fun x => x.planes.contains q)).map (fun x => x.seq) == some o.seq)
        ∧ o.edgeEnd + d.lastCell c o.w ≤ d.cycle ∧ endDone then some o else none

/-- OP_RETIRE: the entry copy is released, the slot's busy bit clears with its last operation, the RETF flag is set
in the next cycle, and log entries are freed (R83, R86, R152, R216). -/
def Dev.opRetire (d : Dev) (c p : Nat) : Dev :=
  match d.retirePlan c p with
  | none => d
  | some o =>
    d.onCore c (fun k =>
      { ({ k with flight := k.flight.filter (fun x => x.seq != o.seq) }).freeLogs with
          flagDue := if mRetfEn o.w then k.flagDue ++ [(mRetf o.w, d.cycle + 1)] else k.flagDue,
          retired := k.retired ++ o.keys,
          progress := true })

/-! ## Leave (R88, R413, R415) -/

/-- The groups a plane has injected are all added. -/
def Core.atBoundary (k : Core) (pl : Nat) : Bool :=
  k.flight.all (fun o => !(subPlanes pl).any (fun p => o.planes.contains p) || o.grps.isEmpty)

/-- PLANE_PAUSE: a plane whose leave is revoked stands at its group boundary and its clocks are gated; its tokens
are free (R88, R415). -/
def Dev.planePause (d : Dev) (c pl : Nat) : Dev :=
  let k := d.core c
  let e := k.edge pl
  if e.revoked ∧ !e.paused ∧ k.atBoundary pl then
    let gs := d.grants.filter (fun g => !(g.core == c && g.plane == pl && g.leaving))
    let left := ((gs.filter (fun g => g.core == c && g.plane == pl)).map (fun g => g.tokens)).foldl (fun a b => a + b) 0
    { (d.setCore c (k.setEdge pl { e with paused := true, tokens := left })) with grants := gs }
  else d

/-! ## Pack-unit fences (R114, R115, R341) -/

/-- Has a core reached epoch e (R427)? -/
def Core.reached (k : Core) (e : Nat) : Bool := [k.x, k.a].all (fun s => s.st != .running || s.epoch == e)

/-- Does a core stand at an epoch: it has just reached one, or neither stream is RUNNING (R427)? -/
def Core.atAnEpoch (k : Core) : Bool := k.atEpoch || (k.x.st != .running && k.a.st != .running)

/-- A publish of the floor plan table (R22): GLB_FP_GEN goes through an odd value to the next even one, CHANGED is set
and its interrupt sent when it was clear. Before READY nothing is published (R435, R437). -/
def Dev.publish (d : Dev) : Dev :=
  if !d.bit (aFwl 0x100) 31 then d else
  let g := (d.reg (aFp 0x100)).toNat
  let d1 := d.setReg (aFp 0x100) (BitVec.ofNat 32 (if g % 2 = 1 then g + 1 else g + 2))
  if d1.bit (aFp 0x10C) 0 then d1.event (aFp 0x10C) 0
  else ((d1.event (aFp 0x10C) 0).putB (aFp 0x10C) 0 true).source (aFp 0) 0 (d1.fld (aGlb 0x100) 10 0)

/-- PU_FENCE_APPLY: the pending pack-unit fences of a plane take effect at an epoch at which no operation is in
flight on it (R114, R115, R341). -/
def Dev.puFenceApply (d : Dev) (c p : Nat) : Dev :=
  let k := d.core c
  let us := (k.puPend.filter (fun x => decide (x / 16 = p))).map (fun x => x % 16)
  if us.isEmpty ∨ k.atAnEpoch = false ∨ k.flight.any (fun o => o.planes.contains p) then d
  else
    let d1 := us.foldl (fun d u => d.putB (aPln c 0x104) (if p = 0 then u else 6 + u) true) d
    let fr := 16 * (d1.bands c 0).length
    let br := 16 * (d1.bands c 1).length
    let d2 := d1.setReg (aPln c 0x100) (BitVec.ofNat 32 (fr + 2 ^ 8 * br + 2 ^ 16 * (fr + br)))
    let d3 := d2.setReg (aPln c 0x10C) (BitVec.ofNat 32 (d2.packValid c))
    let d4 := d3.onCore c (fun k => (List.range 8).foldl (fun k n =>
      let s := k.slot (8 * p + n)
      if s.full || k.busy (8 * p + n) then k.setSlot (8 * p + n) { s with stale := true } else k)
      { k with puPend := k.puPend.filter (fun x => decide (x / 16 ≠ p)) })
    ((d4.raise (aPln c 0) 3).putB (aFp (0x110 + c / 4 * 4)) (8 * (c % 4) + 2) true).publish

end Sys2Proof.Machine
end

