-- ==== Sys2Proof/Machine/DrainPath.lean ====
section
/-! DEFINITION. The drain path (04 R130–R141): scale and bias, activation, row scales, conversion, emission. -/

namespace Sys2Proof.Machine

/-- A value through stages 2 to 5, with what it reported: CLIP, a NaN made here, poison. -/
structure Staged where
  y : Fp
  clip : Bool := false
  nf : Bool := false
  poison : Bool := false
  deriving DecidableEq, Repr

/-- rna_24 of an exact value beyond which comes ±max finite with CLIP; zero is +0 (R131, R133). -/
def settle24 (v : Fp) : Staged :=
  match v with
  | .nan => { y := .nan, nf := true }
  | .inf s => { y := f32 (maxF32 s), clip := true }
  | .fin s m e =>
    match rna24 ⟨if s then -(m : Int) else m, e⟩ with
    | some w => { y := f32 w }
    | none => { y := f32 (maxF32 s), clip := true }

/-- Exact value of a head and tail. -/
def Elem.value (e : Elem) : Fp := Fp.ofDy false ((f32 e.head).dy.add (f32 e.tail).dy)

/-- Stage 2: y = rna_24((h + t) × d_j + β_j) (R131). -/
def stage2 (e : Elem) (dj bj : Option Fp) : Staged :=
  if e.st = .nf then { y := .nan, poison := e.poison }
  else
    let v := match dj with
      | some x => e.value.mul x
      | none => e.value
    let w := match bj with
      | some x => v.add x
      | none => v
    { settle24 w with poison := e.poison }

/-! ## The activation table (R133, R134) -/

/-- The FP32 word at a byte offset of the table RAM. -/
def Core.tab32 (k : Core) (o : Nat) : Fp := f32 (BitVec.ofNat 32 (ofBytesLE ((k.table.drop o).take 4)))

/-- TABLE_ID: 0 while the table RAM is empty. -/
def Core.tableId (k : Core) : Nat := ofBytesLE ((k.table.drop 6).take 2)

/-- W_LOG2 of a table image. -/
def wLog2 (l : List Byte) : Int := signedN (ofBytesLE ((l.drop 4).take 1)) 8

/-- Do the header's checks of an activation table pass (R134)? -/
def tableOk (l : List Byte) : Bool :=
  let w := signedN (ofBytesLE ((l.drop 4).take 1)) 8
  let lo := f32 (BitVec.ofNat 32 (ofBytesLE ((l.drop 24).take 4)))
  let hi := f32 (BitVec.ofNat 32 (ofBytesLE ((l.drop 28).take 4)))
  decide (-16 ≤ w ∧ w ≤ 8) && !lo.isNan && !hi.isNan && !(Fp.less false hi lo)

/-- Slope × y + offset of a tail. -/
def Core.tail (k : Core) (o : Nat) (y : Fp) : Fp := ((k.tab32 o).mul y).add (k.tab32 (o + 4))

/-- A finite multiple of a power of two. -/
def Dy.scale (a : Dy) (n : Int) : Dy := ⟨a.m, a.e + n⟩

/-- A tail on an infinite y: the offset when the slope is zero (R133). -/
def Core.tailInf (k : Core) (o : Nat) (neg : Bool) : Fp :=
  if (k.tab32 o).isZero then k.tab32 (o + 4) else ((k.tab32 o).mul (.inf neg)).add (k.tab32 (o + 4))

/-- TABLE on a value that is not NaN: the exact result before rounding, and the table block it used (R133). -/
def Core.tableAt (k : Core) (y : Fp) : Fp × Option Nat :=
  match k.tab32 0, y with
  | .nan, _ => (.nan, none)
  | _, .nan => (.nan, none)
  | _, .inf s => (if s then k.tailInf 8 true else k.tailInf 16 false, none)
  | .inf s, .fin _ _ _ => (if s then k.tail 16 y else k.tail 8 y, none)
  | .fin xs xm xe, .fin _ _ _ =>
    let w := wLog2 k.table
    let z := (y.dy.sub (Fp.fin xs xm xe).dy).scale (-w)
    let i := z.floorAt 0
    if i < 0 then (k.tail 8 y, none)
    else if 255 < i then (k.tail 16 y, none)
    else
      let u := Fp.ofDy false (z.sub ⟨i, 0⟩)
      let n := i.toNat
      let c (j : Nat) : Fp := k.tab32 (64 + 16 * n + 4 * j)
      ((((c 0).add ((c 1).mul u)).add ((c 2).mul (u.mul u))).add ((c 3).mul (u.mul (u.mul u))), some (1 + n / 4))

/-- A zero made +0. -/
def plusZero (v : Fp) : Fp := if v.isZero then .fin false 0 0 else v

/-- Stage 3 (R132–R134). -/
def Core.stage3 (k : Core) (act : Nat) (a : Staged) : Staged :=
  let bad0 := k.tableBad.contains 0
  match act with
  | 0 => a
  | 1 => { a with y := if a.y.isNan then .nan else if Fp.less false (.fin false 0 0) a.y then a.y else .fin false 0 0 }
  | 2 => if a.y.isNan then { a with poison := a.poison || bad0 } else
      { a with y := plusZero ((a.y.maxF (k.tab32 24)).minF (k.tab32 28)), poison := a.poison || bad0 }
  | _ => if a.y.isNan then { a with poison := a.poison || bad0 } else
      let (v, blk) := k.tableAt a.y
      let s := settle24 v
      { y := s.y, clip := a.clip || s.clip, nf := a.nf || s.nf,
        poison := a.poison || bad0 || (blk.map (fun b => k.tableBad.contains b)).getD false }

/-! ## Row scales and conversion (R135–R137) -/

/-- Target format of a TFMT code below 5. -/
def tgtFmt (t : Nat) : Fmt := [e2m1, e4m3, e5m2, bf16, fp16].getD t fp16

/-- Element width in bits of a TFMT code (R139). -/
def tgtWidth (t : Nat) : Nat := [4, 8, 8, 16, 16, 32, 64].getD t 64

/-- Largest finite magnitude of the row-scale targets as m × 2^e. -/
def qMax (t : Nat) : Nat × Int := [(3, 1), (7, 6), (7, 13)].getD t (7, 6)

/-- The largest of the finite magnitudes. -/
def amaxOf (ys : List Fp) : Fp :=
  ys.foldl (fun m y => match y with
    | .fin _ a e => if Fp.less false m (.fin false a e) then .fin false a e else m
    | _ => m) (.fin false 0 0)

/-- The row scale of a segment as an FP16 code, and whether it clipped (R135). -/
def rowScale (t : Nat) (amax : Fp) : Nat × Bool :=
  match amax with
  | .fin _ m e =>
    if m = 0 then (0x3C00, false)
    else
      let (q, x) := quotCut m (qMax t).1 e (qMax t).2
      let c := fp16.magCode q x
      if 0x7BFF < c then (0x7BFF, true) else if c = 0 then (1, false) else (c, false)
  | _ => (0x3C00, false)

/-- Stage 5 of one value under a row scale, or none (R137). -/
def convertY (t : Nat) (y : Fp) (s : Option Nat) : Nat × Bool :=
  if t = 5 then ((toF32 y).toNat, false)
  else match s with
    | none => (tgtFmt t).convert y
    | some c => (tgtFmt t).convert (y.div (fp16.decode c))

/-! ## Issue checks, start and rows -/

/-- Rows of the slot a drain reads, by sub-plane: the geometry it was written in (R115). -/
def Dev.slotRows (d : Dev) (c key : Nat) : Nat :=
  let s := (d.core c).slot key
  if s.full then s.geo else d.rows c (key / 8)

/-- Available bands in the geometry in which a slot was written (R115). -/
def Dev.slotBands (d : Dev) (c key : Nat) : List Nat :=
  let s := (d.core c).slot key
  if s.full ∧ s.bands ≠ [] then s.bands else d.bands c (key / 8)

/-- The rectangle a drain reads (R115, R139). -/
def Dev.drainRect (d : Dev) (c w : Nat) : Rect :=
  if dPack w = 0 then ⟨0, 0, (slotKeys (mPlane w) (mSlot w)).foldl (fun n key => n + d.slotRows c key) 0, 0, 64⟩
  else probRect (d.mapUnits c (mPlane w) (dPack w)) (d.slotBands c (8 * mPlane w + mSlot w)) (dProb w)

/-- Logical row r of plane and slot, as elements. -/
def Dev.slotRow (d : Dev) (c plane slot r : Nat) : List Elem :=
  let k := d.core c
  let pick (key i : Nat) : List Elem := (List.range 64).map (fun j => (k.slot key).elem i j)
  if plane = 2 then
    let fr := d.slotRows c slot
    if r < fr then pick slot r else pick (8 + slot) (r - fr)
  else pick (8 * plane + slot) r

/-- OR of the flags a drain reports (R140). -/
def Dev.drainFlags (d : Dev) (c : Nat) (x : Drain) : Nat :=
  let us := if dPack x.w = 0 then allUnits else rectUnits (d.drainRect c x.w)
  x.keys.foldl (fun m key => m ||| (((d.core c).slot key).flagsOf us)) 0

/-- A TLOAD is in progress (R134). -/
def Core.tableLoading (k : Core) : Bool := k.trans.any (fun t => t.kind == .table)

/-- May the next issued drain start: the path is free, its slots retired before this cycle, and the table is not being loaded
(R134, R141, R155)? -/
def Dev.drainMayStart (d : Dev) (c : Nat) : Option Drain :=
  let k := d.core c
  match k.drain, k.drains with
  | none, x :: _ =>
    if k.drainNext ≤ d.cycle ∧ !(decide (2 ≤ dAct x.w) && k.tableLoading) ∧ !x.keys.any k.retired.contains
        ∧ !k.stopping ∧ !k.inReset then some x else none
  | _, _ => none

/-- DRAIN_START: HELD slots become DRAINING (R87). -/
def Dev.drainStart (d : Dev) (c : Nat) : Dev :=
  match d.drainMayStart c with
  | none => d
  | some x =>
    let k := d.core c
    let x1 := { x with rows := (d.drainRect c x.w).rows, flags := d.drainFlags c x,
                       shift := x.keys.any (fun key => (k.slot key).shift) }
    let k1 := x.keys.foldl (fun (k : Core) key => k.setSlot key { (k.slot key) with draining := true }) k
    d.setCore c { k1 with drains := k1.drains.tail, drain := some x1, drainNext := d.cycle }

/-- Bytes of a row record (R139). -/
def recBytes (w cols : Nat) : Nat := tgtWidth (dTfmt w) * cols * (if dPairs w then 2 else 1) / 8

/-- One drained row: its record, its scales by segment, its amax, and what it reported. -/
structure RowOut where
  bytes : List Byte
  /-- Byte offsets of poisoned elements. -/
  bad : List Nat
  scales : List (Nat × Bool)
  amax : Word × Bool
  clip : Bool
  nf : Bool
  poison : Bool
  deriving DecidableEq, Repr

/-- A bank entry as a factor of stage 2, with its poison. -/
def Dev.bankFactor (d : Dev) (c plane bank j : Nat) : Fp × Bool :=
  (f32 (d.reg (bankReg c plane bank j)), (d.core c).bankBad.contains (bankKey plane bank j))

/-- Stages 1 to 3 on one element of column j. -/
def Dev.stage123 (d : Dev) (c w j : Nat) (e : Elem) : Staged :=
  let dj := if dDse w then some (d.bankFactor c (mPlane w) (dDbank w) j) else none
  let bj := if dBse w then some (d.bankFactor c (mPlane w) (dBbank w) j) else none
  let a := stage2 e (dj.map (fun p => p.1)) (bj.map (fun p => p.1))
  (d.core c).stage3 (dAct w) { a with poison := a.poison || (dj.map (fun p => p.2)).getD false || (bj.map (fun p => p.2)).getD false }

/-- Indices of 64-byte blocks that hold a poisoned item of w bits. -/
def badBlocks (wd : Nat) (ps : List Bool) : List Nat :=
  ps.zipIdx.foldl (fun l p => if p.1 then setIns l (p.2 * wd / 8 / 64) else l) []

/-- Byte offsets of poisoned items of w bits. -/
def badOffsets (wd : Nat) (ps : List Bool) : List Nat :=
  (ps.zipIdx.filter (fun p => p.1)).map (fun p => p.2 * wd / 8)

/-- One row through the drain path (R130–R138). -/
def Dev.drainRow1 (d : Dev) (c : Nat) (x : Drain) : RowOut :=
  let w := x.w
  let rc := d.drainRect c w
  let elems (slot : Nat) : List (Nat × Elem) :=
    ((((d.slotRow c (mPlane w) slot (rc.row + x.row)).drop rc.col).take rc.cols).zipIdx.map (fun p => (rc.col + p.2, p.1)))
  let es := elems (mSlot w) ++ (if dPairs w then elems (mSlot w + 1) else [])
  let t := dTfmt w
  if t = 6 then
    let ps := es.map (fun p => p.2.poison)
    ⟨packBits 64 (es.map (fun p => p.2.head.toNat + 2 ^ 32 * p.2.tail.toNat)), badOffsets 64 ps, [], (0, false), false, false, ps.any id⟩
  else
    let ss := es.map (fun p => d.stage123 c w p.1 p.2)
    let seg := 32 * 2 ^ dGout w
    let scs := if dRs w then (chunksOf seg ss).map (fun l => (rowScale t (amaxOf (l.map (fun s => s.y))), l.any (fun s => s.poison))) else []
    let qs := ss.zipIdx.map (fun p => convertY t p.1.y (if dRs w then (scs[p.2 / seg]?).map (fun s => s.1.1) else none))
    let ps := ss.map (fun s => s.poison)
    ⟨packBits (tgtWidth t) (qs.map (fun q => q.1)), badOffsets (tgtWidth t) ps, scs.map (fun s => (s.1.1, s.2)),
      (toF32 (amaxOf (ss.map (fun s => s.y))), ps.any id),
      ss.any (fun s => s.clip) || qs.any (fun q => q.2) || scs.any (fun s => s.1.2), ss.any (fun s => s.nf), ps.any id⟩

/-- Bytes padded to whole 64-byte entries, with poison by block, two entries a cycle (R139). -/
def toEntries (l : List Byte) (bad : List Nat) (due : Nat) : List QEntry :=
  (chunksOf 64 l).zipIdx.map (fun p => { data := padTo 64 0 p.1, poison := bad.contains p.2, due := due + p.2 / 2 })

/-- The drain status word (R140). -/
def drainStatus (x : Drain) : Nat :=
  let f := x.flags
  let nf := bitN f 1 || x.nf
  let code := if x.poison then 1 else if bitN f 0 then 6 else if nf then 7 else if bitN f 3 then 8 else 0
  code + b2n (bitN f 0) * 2 ^ 9 + b2n nf * 2 ^ 10 + b2n (bitN f 2) * 2 ^ 11 + b2n (bitN f 3) * 2 ^ 12 + b2n x.shift * 2 ^ 13
    + b2n x.clip * 2 ^ 14 + b2n x.poison * 2 ^ 15 + 2 ^ 16 * x.rows

/-- The blocks and words after the last row record, from cycle `due` at 128 bytes per cycle (R139, R141). -/
def drainTrailer (x : Drain) (due : Nat) : List QEntry :=
  let n := (x.scales.headD []).length
  let blocks := if dRs x.w then (List.range n).flatMap (fun s =>
      let vs := x.scales.map (fun r => r.getD s (0, false))
      let hdr := bytesLE 8 ((dTag x.w + s) % 64 + 2 ^ 8 + 2 ^ 16 * x.rows)
      let bad := vs.zipIdx.foldl (fun l p => if p.1.2 then setIns l ((8 + 2 * p.2) / 64) else l) []
      toEntries (hdr ++ vs.flatMap (fun v => bytesLE 2 v.1)) bad due) else []
  let am := if dAmax x.w then toEntries (x.amax.flatMap (fun v => bytesLE 4 v.1.toNat)) (badBlocks 32 (x.amax.map (fun v => v.2))) due else []
  let st := if dStat x.w then toEntries (bytesLE 8 (drainStatus x)) [] due else []
  (blocks ++ am ++ st).zipIdx.map (fun p => { p.1 with due := due + p.2 / 2 })

/-- The drain's last emission is in the store queue (R153, R178). -/
def Dev.drainDone (d : Dev) (c : Nat) (x : Drain) (due : Nat) : Dev :=
  d.onCore c (fun k => { k with drain := none,
                                flagDue := if dRetfEn x.w then k.flagDue ++ [(dRetf x.w, due)] else k.flagDue })

/-- Trailer entries pushed as far as there is space. -/
def Dev.drainEmit (d : Dev) (c : Nat) (x : Drain) : Dev :=
  let q := 4 + dSq x.w
  let n := min ((d.core c).space q) x.tail.length
  let d1 := d.onCore c (fun k => { (k.push q (x.tail.take n)) with drain := some { x with tail := x.tail.drop n } })
  if n = x.tail.length then d1.drainDone c { x with tail := [] } (max (d.cycle + 1) ((x.tail.getLast?.map (fun e => e.due)).getD 0)) else d1

/-- Whole entries a row adds to the store queue. -/
def rowPushes (x : Drain) (n : Nat) : Nat :=
  if x.row + 1 = x.rows then (x.buf.length + n + 63) / 64 else (x.buf.length + n) / 64

/-- May the running drain read its next row: its turn has come and the record has space (R141)? -/
def Dev.rowReady (d : Dev) (c : Nat) : Option Drain :=
  let k := d.core c
  match k.drain with
  | none => none
  | some x =>
    if x.row < x.rows ∧ k.drainNext ≤ d.cycle ∧ !k.stopping ∧ rowPushes x (recBytes x.w (d.drainRect c x.w).cols) ≤ k.space (4 + dSq x.w)
    then some x else none

/-- DRAIN_ROW: one row is read and its record pushed; in the cycle after the last row the slots are HELD again, and
the trailer follows (R87, R139, R141). -/
def Dev.drainRow (d : Dev) (c : Nat) : Dev :=
  match d.rowReady c with
  | none =>
    match (d.core c).drain with
    | some x => if x.rows ≤ x.row ∧ !x.tail.isEmpty ∧ !(d.core c).stopping then d.drainEmit c x else d
    | none => d
  | some x =>
    let q := 4 + dSq x.w
    let r := d.drainRow1 c x
    let due := d.cycle + 14
    let lastRow := decide (x.row + 1 = x.rows)
    let bytes := x.buf ++ r.bytes
    let bad := (if x.bufBad then [0] else []) ++ r.bad.map (fun b => (x.buf.length + b) / 64)
    let cut := if lastRow then bytes.length else bytes.length / 64 * 64
    let es := toEntries (bytes.take cut) bad due
    let x1 := { x with
      row := x.row + 1, buf := bytes.drop cut, bufBad := (x.bufBad && cut == 0) || (!lastRow && bad.contains (cut / 64))
      scales := x.scales ++ [r.scales], amax := x.amax ++ [r.amax], clip := x.clip || r.clip, nf := x.nf || r.nf,
      poison := x.poison || r.poison }
    let cost := max (if dPairs x.w then 2 else 1) (r.bytes.length / 128)
    if lastRow then
      let tl := drainTrailer x1 (due + cost)
      let x2 := { x1 with tail := tl }
      let d1 := d.onCore c (fun k =>
        { (k.push q es) with undrain := x.keys, drain := some x2, drainNext := d.cycle + cost + (tl.length + 1) / 2, progress := true })
      if tl.isEmpty then d1.drainDone c x2 (due + cost - 1) else d1.drainEmit c x2
    else d.onCore c (fun k => { (k.push q es) with drain := some x1, drainNext := d.cycle + cost, progress := true })

end Sys2Proof.Machine
end

