-- ==== Sys2Proof/Machine/Vector.lean ====
section
/-! DEFINITION. The vector unit (05 R156–R162): lane operations, reductions, and reads and writes of vector registers
with their latencies (R160, R172, R174). -/

namespace Sys2Proof.Machine

/-! ## Registers -/

/-- A vector register as a word that issues in a cycle sees it (R160). -/
def Core.vread (k : Core) (r cyc : Nat) : VReg :=
  match (k.vpend.filter (fun p => p.reg == r && decide (p.due ≤ cyc))).getLast? with
  | some p => p.val
  | none => k.vregs.getD r {}

/-- Has a register a write that has not landed (R185)? -/
def Core.vpending (k : Core) (r cyc : Nat) : Bool := k.vpend.any (fun p => p.reg == r && decide (cyc < p.due))

/-- A write issued: earlier writes of the register that would land in the same cycle or later are discarded (R160,
R174). -/
def Core.vwrite (k : Core) (r : Nat) (v : VReg) (due : Nat) : Core :=
  { k with vpend := k.vpend.filter (fun p => !(p.reg == r && decide (due ≤ p.due))) ++ [⟨r, v, due⟩] }

/-- VREG_WRITEBACK: every write whose cycle has come lands (R160). -/
def Core.vland (k : Core) (cyc : Nat) : Core :=
  { k with vregs := (k.vpend.filter (fun p => decide (p.due ≤ cyc))).foldl (fun t p => t.put p.reg p.val) k.vregs
           vpend := k.vpend.filter (fun p => decide (cyc < p.due)) }

/-- Lane j of a register: 0 where nothing has written. -/
def VReg.lane (v : VReg) (j : Nat) : Word := v.lanes.getD j 0

/-! ## Element operations -/

/-- a = b as numbers; a NaN equals nothing. -/
def fpEq (a b : Fp) : Bool := !a.isNan && !b.isNan && !Fp.less false a b && !Fp.less false b a

/-- Condition of VCMP. -/
def fpCond (cond : Nat) (a b : Fp) : Bool :=
  match cond with
  | 0 => fpEq a b
  | 1 => !fpEq a b
  | 2 => Fp.less false a b
  | _ => Fp.less false a b || fpEq a b

/-- Arithmetic of one element: exact, to be rounded once by the caller (R157). -/
def vArith (op : Nat) (a b c : Fp) : Fp :=
  match op with
  | 0x01 => a.add b
  | 0x02 => a.add b.negate
  | 0x03 => a.mul b
  | 0x04 => (a.mul b).add c
  | 0x05 => a.minF b
  | 0x06 => a.maxF b
  | 0x09 => a.div b
  | 0x0A => a.sqrt
  | _ => a.rsqrt

/-- Number of 1 bits of a number below 2^n. -/
def popN (w n : Nat) : Nat := ((List.range n).filter (fun i => bitN w i)).length

/-- Format of a VCVT code other than INT32. -/
def cvtFmt (n : Nat) : Fmt := [fp32, bf16, fp16, e4m3, e5m2, e2m1].getD n fp32

/-- VCVT of one lane (R158). -/
def vConvert (src dst : Nat) (w : Word) : Word :=
  if src = 0 then
    if dst = 6 then
      (match f32 w with
        | .nan => 0
        | .inf s => if s then 0x80000000 else 0x7FFFFFFF
        | .fin s m e =>
          let i := (if s then -1 else 1) * (rnaAt m e 0 : Int)
          if i < -(2 ^ 31) then 0x80000000 else if 2 ^ 31 - 1 < i then 0x7FFFFFFF else BitVec.ofInt 32 i)
    else BitVec.ofNat 32 ((cvtFmt dst).convert (f32 w)).1
  else if src = 6 then toF32 (Fp.ofDy false ⟨w.toInt, 0⟩)
  else toF32 ((cvtFmt src).decode (w.toNat % 2 ^ (cvtFmt src).bits))

/-- One FP32 lane, or two BF16 elements (R157). -/
def vLane (v : Nat) (a b c : Word) : Word :=
  let op := vOp v
  match op with
  | 0x07 => a &&& 0x7FFFFFFF
  | 0x08 => a ^^^ 0x80000000
  | 0x0D => if c = 0 then b else a
  | 0x10 => a &&& b
  | 0x11 => a ||| b
  | 0x12 => a ^^^ b
  | 0x13 => BitVec.ofNat 32 (popN a.toNat 32)
  | 0x14 => vConvert (bitsN v 7 4) (bitsN v 3 0) a
  | 0x21 => a
  | _ =>
    if vPk v = 0 then
      (if op = 0x0C then (if fpCond (bitsN v 1 0) (f32 a) (f32 b) then 0xFFFFFFFF else 0)
       else toF32 (vArith op (f32 a) (f32 b) (f32 c)))
    else
      let half (h : Nat) : Nat :=
        let x (w : Word) : Fp := bf16.decode (bitsN w.toNat (16 * h + 15) (16 * h))
        if op = 0x0C then (if fpCond (bitsN v 1 0) (x a) (x b) then 0xFFFF else 0)
        else bf16.encodeIeee (vArith op (x a) (x b) (x c))
      BitVec.ofNat 32 (half 0 + half 1 * 2 ^ 16)

/-! ## Reductions (R159) -/

/-- One level of the fixed pairwise tree. -/
def pairUp {α : Type} (f : α → α → α) : List α → List α
  | a :: b :: t => f a b :: pairUp f t
  | l => l

/-- The tree over n levels. -/
def treeFold {α : Type} (f : α → α → α) : Nat → List α → List α
  | 0, l => l
  | n + 1, l => treeFold f n (pairUp f l)

/-- Rounded reduction step of a format. -/
def redStep (f : Fmt) (op a b : Nat) : Nat :=
  let x := f.decode a
  let y := f.decode b
  f.encodeIeee (if op = 0 then x.add y else if op = 1 then x.maxF y else x.minF y)

/-- VRED: the value of lane 0. -/
def vReduce (v : Nat) (l : List Word) : Word :=
  let op := bitsN v 2 0
  if op ≤ 2 then
    if vPk v = 0 then BitVec.ofNat 32 ((treeFold (redStep fp32 op) 6 (l.map (fun w => w.toNat))).headD 0)
    else
      let half (h : Nat) : Nat := (treeFold (redStep bf16 op) 6 (l.map (fun w => bitsN w.toNat (16 * h + 15) (16 * h)))).headD 0
      BitVec.ofNat 32 (half 0 + half 1 * 2 ^ 16)
  else match op with
    | 3 => l.foldl (fun a w => a &&& w) 0xFFFFFFFF
    | 4 => l.foldl (fun a w => a ||| w) 0
    | 5 => l.foldl (fun a w => a ^^^ w) 0
    | _ => BitVec.ofNat 32 (l.foldl (fun n w => n + popN w.toNat 32) 0)

/-! ## Instructions -/

/-- The value a vector instruction writes: lane results, or the entries of a load queue (R157, R162). A lane is
poisoned when a source's lane is (DEDUCED: poison flows on with the data, R345; log entry 96). -/
def Dev.vResult (d : Dev) (c v : Nat) : VReg :=
  let k := d.core c
  let src (r : Nat) : VReg := k.vread r d.cycle
  let bad := ((vReads v).flatMap (fun r => (src r).bad)).foldl setIns []
  match vOp v with
  | 0x18 => ⟨vReduce v ((List.range 64).map (src (vA v)).lane) :: List.replicate 63 0, if bad.isEmpty then [] else [0]⟩
  | 0x20 => ⟨List.replicate 64 (BitVec.ofNat 32 (bitsN v 31 0)), []⟩
  | 0x28 =>
    let es := (k.queue (bitsN v 1 0)).take 4
    ⟨(chunksOf 4 (entryBytes es)).map (fun b => BitVec.ofNat 32 (ofBytesLE b)),
      (List.range 64).filter (fun j => (entryBad es).contains (j / 16))⟩
  | 0x2A =>
    let row := d.slotRow c (bitsN v 33 32) (bitsN v 31 29) (bitsN v 28 21)
    ⟨row.map (fun e => if bitN v 20 then e.tail else e.head), (List.range 64).filter (fun j => (row.getD j {}).poison)⟩
  | _ => ⟨(List.range 64).map (fun j => vLane v ((src (vA v)).lane j) ((src (vB v)).lane j) ((src (vC v)).lane j)), bad⟩

/-- The four entries a VSTQ pushes (R162, R172). -/
def vEntries (r : VReg) (due : Nat) : List QEntry :=
  (List.range 4).map (fun i =>
    { data := (List.range 16).flatMap (fun j => bytesLE 4 (r.lane (16 * i + j)).toNat), poison := r.bad.any (fun j => decide (j / 16 = i)), due := due })

/-- State of the commit gate of a core's job: 0 NONE, 1 COLLECTING, 2 REDUCING, 3 OPEN, 4 CLOSED, 5 FAILED,
6 POISONED (R320); 0 without a job. -/
def Dev.gateOf (d : Dev) (c : Nat) : Nat :=
  match (d.core c).job with
  | some n => d.fld (aStepJ n 0x1C) 3 0
  | none => 0

/-- Must a predicated word wait for the gate (R161)? -/
def Dev.gateWaits (d : Dev) (c v : Nat) : Bool := vPred v != 0 && [1, 2, 5, 6].contains (d.gateOf c)

/-- Is the predicate true (R161)? -/
def Dev.predTrue (d : Dev) (c v : Nat) : Bool :=
  vPred v == 0 || (vPred v == 1 && d.gateOf c == 3) || (vPred v == 2 && d.gateOf c == 4)

/-- The effect of a vector slot at issue. -/
def Dev.vectorEffect (d : Dev) (c v : Nat) : Dev :=
  if vOp v = 0 then d
  else
    let due := d.cycle + vLatency v
    let d1 := if [0x09, 0x0A, 0x0B].contains (vOp v) then d.onCore c (fun k => { k with divNext := d.cycle + 4 }) else d
    if !d.predTrue c v then d1
    else if vOp v = 0x29 then d1.onCore c (fun k => k.push (4 + bitsN v 0 0) (vEntries (k.vread (vA v) d.cycle) due))
    else
      let r := d1.vResult c v
      let d2 := d1.onCore c (fun k => k.vwrite (vD v) r due)
      if vOp v = 0x28 then d2.onCore c (fun k => (k.drop (bitsN v 1 0) 4).freeLogs) else d2

end Sys2Proof.Machine
end

