-- ==== Sys2Proof/Machine/Issue.lean ====
section
/-! DEFINITION. Issue of one whole word of the execute stream or of the access stream (05 R142–R170, 06 R173–R185,
R190): window, encoding, the conditions that hold a word back, the precise faults of its slots, its effects. -/

namespace Sys2Proof.Machine

/-- An execute word by slots (R145). -/
structure XWord where
  m : Nat
  v : Nat
  s : Nat
  y : Nat
  deriving DecidableEq, Repr

/-- An access word by slots (R145). -/
structure AWord where
  l : Nat
  t : Nat
  s : Nat
  y : Nat
  deriving DecidableEq, Repr

/-- What a word meets at issue: it waits, or it faults (unit and fault record argument), or it issues. -/
inductive Check where
  | ok
  | wait (w : WaitOn)
  | fault (unit arg : Nat)
  deriving DecidableEq, Repr

/-- The first of a list of checks that is not ok. -/
def firstCheck : List Check → Check
  | [] => .ok
  | .ok :: t => firstCheck t
  | c :: _ => c

/-- A fault when a condition holds. -/
def faultIf (b : Bool) (unit arg : Nat) : Check := if b then .fault unit arg else .ok

/-- A wait when a condition holds. -/
def waitIf (b : Bool) (cause arg : Nat) : Check := if b then .wait ⟨cause, arg⟩ else .ok

/-- May a stream try to issue in this cycle: RUNNING, not past HALT, no save asked for, its idle issue cycles over
(R165, R166, R189, R191)? -/
def Dev.mayIssue (d : Dev) (c : Nat) (exec : Bool) : Bool :=
  let k := d.core c
  let s := k.stream exec
  s.st == .running && !s.halting && decide (s.nextIssue ≤ d.cycle) && !k.stopping && !k.inReset

/-- Length of a stream's program window in words (R198). -/
def Dev.windowLen (d : Dev) (c : Nat) (exec : Bool) : Nat := d.fld (aStrm c (if exec then 0x118 else 0x128)) 19 0

/-- The window check (R165, R190). -/
def Dev.windowCheck (d : Dev) (c : Nat) (exec : Bool) : Check :=
  faultIf (decide (d.windowLen c exec ≤ ((d.core c).stream exec).pc)) 0 (hazArg 3 0 0 0)

/-! ## Flags as a word sees them (R182) -/

/-- Flags that a WAITF of this cycle sees: as they were before the cycle, less those already consumed in it when it
consumes too. -/
def Core.flagsSeen (k : Core) (cyc : Nat) (consume : Bool) : Nat :=
  if k.flagCyc = cyc then k.flagPre &&& (0xFFFF ^^^ (if consume then k.flagTaken else 0)) else k.flags

/-- A WAITF that is not satisfied (R167). -/
def Core.waitfCheck (k : Core) (y cyc : Nat) : Check :=
  if yOp y = 2 then
    let miss := yArg y &&& (0xFFFF ^^^ k.flagsSeen cyc (yConsume y))
    waitIf (miss != 0) 1 miss
  else .ok

/-! ## Execute word -/

/-- Encodings of an execute word (R144, R149, R154, R118, R99). -/
def Dev.xEncoding (d : Dev) (c : Nat) (w : XWord) : Check :=
  let op := mOp w.m
  let mapWrong (m : Nat) : Bool := m != 0 && !d.bit (aPln c 0x10C) (m + 8 * mPlane w.m)
  firstCheck [
    faultIf (match op with
      | 0 => !zeroN w.m 123 0
      | 1 => mrunBad w.m (d.chainMode c) || mapWrong (mPack w.m)
      | 2 => drainBad w.m || (dPack w.m != 0 && (mPlane w.m == 2 || !(mapProbs (d.mapUnits c (mPlane w.m) (dPack w.m))).contains (dProb w.m)))
      | _ => true) 1 (hazArg 0 0 0 0),
    faultIf (op == 1 && groupstreamBad w.m) 1 (hazArg 8 0 0 0),
    faultIf (vectorBad w.v (fun p => d.rows c p)) 2 (hazArg 0 0 0 0),
    faultIf (scalarBad w.s) 0 (hazArg 0 0 0 0),
    faultIf (syncBad w.y) 3 (hazArg 0 0 0 0)]

/-- Operations issued to a plane and not entered into its edge (R150). -/
def Core.issued (k : Core) (p : Nat) : Nat := (k.issue.filter (fun o => o.planes.contains p)).length

/-- Busy check of a slot read: the first busy key among those (R183). -/
def Core.busyKey (k : Core) (keys : List Nat) : Option Nat := keys.find? k.busy

/-- Slot keys a word's DRAIN and VRDS read. -/
def xReads (w : XWord) : List Nat :=
  (if mOp w.m = 2 then slotKeys (mPlane w.m) (mSlot w.m) ++ (if dPairs w.m then slotKeys (mPlane w.m) (mSlot w.m + 1) else []) else [])
    ++ (if vOp w.v = 0x2A then slotKeys (bitsN w.v 33 32) (bitsN w.v 31 29) else [])

/-- Reads of busy slots: a fault naming plane and slot, or a stall, as HAZ_MODE selects (R183). -/
def Dev.busyCheck (d : Dev) (c : Nat) (stall : Bool) (unit : Nat) (plane : Nat) (keys : List Nat) : Check :=
  match (d.core c).busyKey keys with
  | none => .ok
  | some key =>
    if d.bit (aCctl c 0x100) 0 then (if stall then .wait ⟨7, plane * 16 + key % 8⟩ else .ok)
    else (if stall then .ok else .fault unit (hazArg 1 0 plane (key % 8)))

/-- The plane a DRAIN or VRDS names in the reports of its busy slots. -/
def Dev.slotChecks (d : Dev) (c : Nat) (w : XWord) (stall : Bool) : List Check :=
  [if mOp w.m = 2 then d.busyCheck c stall 1 (mPlane w.m) (xReads { w with v := 0 }) else .ok,
   if vOp w.v = 0x2A then d.busyCheck c stall 2 (bitsN w.v 33 32) (xReads { w with m := 0 }) else .ok]

/-- What holds an execute word back (R143, R178). -/
def Dev.xHolds (d : Dev) (c : Nat) (w : XWord) : Check :=
  let k := d.core c
  let q := bitsN w.v 1 0
  let sq := 4 + bitsN w.v 0 0
  firstCheck ([k.waitfCheck w.y d.cycle] ++
    (if mOp w.m = 1 then (subPlanes (mPlane w.m)).map (fun p => waitIf (decide (2 ≤ k.issued p)) 5 p) else []) ++
    (if mOp w.m = 2 then [waitIf (decide (2 ≤ k.drains.length)) 6 0, waitIf (decide (2 ≤ dAct w.m) && k.tableLoading) 18 0] else []) ++
    (if vOp w.v = 0x28 then [waitIf (k.ops.any (fun o => o.takesFrom q) || decide (0 < k.owes q) || (k.front q 4 d.cycle).isNone) 2 q] else []) ++
    (if vOp w.v = 0x29 then [waitIf ((k.drains ++ k.drain.toList).any (fun x => 4 + dSq x.w == sq) || (k.queue sq).any (fun e => decide (d.cycle < e.due))
      || decide (k.space sq < 4)) 3 sq] else []) ++
    [waitIf (d.gateWaits c w.v) 16 0,
     waitIf ([0x09, 0x0A, 0x0B].contains (vOp w.v) && decide (d.cycle < k.divNext)) 17 0] ++
    d.slotChecks c w true)

/-- Does an operation that continues a slot now find it STALE: no operation issued before it opens the slot (R115)? -/
def Core.staleFor (k : Core) (key : Nat) : Bool :=
  (k.slot key).stale && !k.ops.any (fun o => o.t0.isNone && mOpen o.w && o.keys.contains key)

/-- Precise faults of the slots' state (R115, R134, R136, R183, R185). -/
def Dev.xFaults (d : Dev) (c : Nat) (w : XWord) : Check :=
  let k := d.core c
  let keys := slotKeys (mPlane w.m) (mSlot w.m)
  let pair := keys ++ slotKeys (mPlane w.m) (mSlot w.m + 1)
  firstCheck (d.slotChecks c w false ++
    (if mOp w.m = 1 then
      [faultIf (!mOpen w.m && keys.any k.staleFor) 1 (hazArg 7 0 (mPlane w.m) (mSlot w.m))] else []) ++
    (if mOp w.m = 2 then
      [faultIf (dPairs w.m && pair.any (fun key => !(k.slot key).full)) 1 (hazArg 7 0 (mPlane w.m) (mSlot w.m)),
       faultIf (dRs w.m && !dPairs w.m && decide ((d.drainRect c w.m).cols < 32 * 2 ^ dGout w.m)) 1 (hazArg 7 0 (mPlane w.m) (mSlot w.m)),
       faultIf (decide (2 ≤ dAct w.m) && (k.tableId == 0 || k.tableId != dTid w.m)) 1 (hazArg 6 0 (mPlane w.m) (mSlot w.m))] else []) ++
    (if d.bit (aCctl c 0x100) 1 then
      (vReads w.v).map (fun r => faultIf (k.vpending r d.cycle) 2 (hazArg 2 r 0 0)) else []))

/-- All checks of an execute word, in order. -/
def Dev.xCheck (d : Dev) (c : Nat) (w : XWord) : Check :=
  firstCheck [d.windowCheck c true, d.xEncoding c w, d.xHolds c w, d.xFaults c w]

/-- MRUN: one operation into the issue buffer (R147, R150). -/
def Dev.mrunEffect (d : Dev) (c m pc : Nat) : Dev :=
  d.onCore c (fun k =>
    let chained := d.chainMode c != 0 && mCell m != 6
    { k with issue := k.issue ++ [{ w := m, seq := k.ono, pc := pc, cyc := d.cycle, cno := if chained then k.chainNo + 1 else 0 }]
             ono := k.ono + 1, chainNo := if chained then k.chainNo + 1 else k.chainNo })

/-- DRAIN: one drain into the drain issue buffer (R153, R155). -/
def Dev.drainEffect (d : Dev) (c m pc : Nat) : Dev :=
  d.onCore c (fun k => { k with drains := k.drains ++ [{ w := m, seq := k.ono, pc := pc, cyc := d.cycle }], ono := k.ono + 1 })

/-- The effect of a matrix slot. -/
def Dev.matrixEffect (d : Dev) (c m pc : Nat) : Dev :=
  match mOp m with
  | 1 => d.mrunEffect c m pc
  | 2 => d.drainEffect c m pc
  | _ => d

/-! ## Scalar and sync slots -/

/-- A counter of a stream. -/
def Stream.counter (s : Stream) (n : Nat) : Nat := s.ctr.getD n 0

/-- A comparator of a stream. -/
def Stream.cond (s : Stream) (n : Nat) : Bool := s.cmp.contains n

/-- Comparison of KCMP and KCMPC, unsigned (R164). -/
def kCond (cond a b : Nat) : Bool :=
  match cond with
  | 0 => a == b
  | 1 => a != b
  | 2 => decide (a < b)
  | _ => decide (b ≤ a)

/-- Is the branch of a scalar slot taken (R164, R165)? -/
def Stream.taken (s : Stream) (x : Nat) : Bool :=
  match sOp x with
  | 5 => s.cond (sKn x) == bitN x 24
  | 6 => true
  | 7 => decide ((s.counter (sCa x) + 2 ^ 24 - 1) % 2 ^ 24 ≠ 0)
  | _ => false

/-- The stream after the scalar slot of a word that issued in a cycle (R163–R166). -/
def Stream.scalar (s : Stream) (x cyc : Nat) : Stream :=
  let t := s.taken x
  let pc := if t then wrapN ((s.pc : Int) + signedN (sImm x) 24) 24 else s.pc + 1
  let late := if t then sOp x ≠ 7 else sOp x = 7
  let s1 := { s with pc := pc, nextIssue := cyc + (if late then 3 else 1), wait := none }
  let setK (b : Bool) : List Nat := if b then setIns s.cmp (sKn x) else setDel s.cmp (sKn x)
  match sOp x with
  | 1 => { s1 with ctr := s.ctr.store 0 (sCa x) (sImm x) }
  | 2 => { s1 with ctr := s.ctr.store 0 (sCa x) ((s.counter (sCa x) + sImm x) % 2 ^ 24) }
  | 3 => { s1 with cmp := setK (kCond (sCond x) (s.counter (sCa x)) (sImm x)) }
  | 4 => { s1 with cmp := setK (kCond (sCond x) (s.counter (sCa x)) (s.counter (sCb x))) }
  | 7 => { s1 with ctr := s.ctr.store 0 (sCa x) ((s.counter (sCa x) + 2 ^ 24 - 1) % 2 ^ 24) }
  | 8 => { s1 with halting := true }
  | _ => s1

/-- The effect of a sync slot (R167, R427). -/
def Dev.syncEffect (d : Dev) (c : Nat) (exec : Bool) (y : Nat) : Dev :=
  match yOp y with
  | 1 => d.setFlags c (yArg y)
  | 2 =>
    if yConsume y then
      let d1 := d.onCore c (fun k =>
        let k1 := k.flagSync d.cycle
        { k1 with flagTaken := k1.flagTaken ||| yArg y })
      d1.clrFlags c (yArg y)
    else d
  | 3 => d.onCore c (fun k => k.setStream exec { (k.stream exec) with epoch := yArg y })
  | _ => d

/-- A word has issued: scalar slot, sync slot, counters (R143, R186). -/
def Dev.issued (d : Dev) (c : Nat) (exec : Bool) (s y : Nat) : Dev :=
  let d1 := (d.syncEffect c exec y).onCore c (fun k => { (k.setStream exec ((k.stream exec).scalar s d.cycle)) with
    progress := true, atEpoch := yOp y == 3 && k.reached (yArg y) })
  d1.incWrap (aStrm c (if exec then 0x158 else 0x15C))

/-- The stream waits: its cause is kept for the Badger (R188). -/
def Dev.streamWait (d : Dev) (c : Nat) (exec : Bool) (w : WaitOn) : Dev :=
  d.onCore c (fun k => k.setStream exec { (k.stream exec) with wait := some w })

/-- Issue of one execute word (R143). -/
def Dev.issueX (d : Dev) (c : Nat) (w : XWord) : Dev :=
  if !d.mayIssue c true then d
  else match d.xCheck c w with
    | .fault u arg => d.preciseFault c true u arg
    | .wait x => d.streamWait c true x
    | .ok => ((d.vectorEffect c w.v).matrixEffect c w.m ((d.core c).x.pc)).issued c true w.s w.y

/-! ## Access word -/

/-- Encodings of an access word (R144, R169). -/
def aEncoding (w : AWord) : Check :=
  firstCheck [
    faultIf (loadBad w.l) 4 (hazArg 0 0 0 0), faultIf (storeBad w.t) 5 (hazArg 0 0 0 0),
    faultIf (scalarBad w.s) 0 (hazArg 0 0 0 0), faultIf (syncBad w.y) 3 (hazArg 0 0 0 0),
    faultIf (lOp w.l == 4 && lOp w.t == 4 && lAg w.l == lAg w.t && lField w.l == lField w.t) 5 (hazArg 0 0 0 0)]

/-- Does an engine hold all it can (R170, R216)? -/
def Core.engineFull (k : Core) (q : Nat) : Bool :=
  match k.engine q with
  | [] => false
  | [t] => decide (q < 4) && !t.logged && !k.orderWaits t && decide (16 ≤ (k.logsOf q).length)
  | _ => true

/-- Is a column scale bank named by an operation not retired or a drain in progress (R120)? -/
def Core.bankUsed (k : Core) (plane bank : Nat) : Bool :=
  let same (pl : Nat) : Bool := (pl == 1) == (plane == 1)
  k.ops.any (fun o => mCsrc o.w != 0 && mCbank o.w == bank && same (mPlane o.w))
    || (k.drains ++ k.drain.toList).any (fun x => same (mPlane x.w) && ((dDse x.w && dDbank x.w == bank) || (dBse x.w && dBbank x.w == bank)))

/-- A bank write waits: the bank is in use or earlier writes of it are held (R120). -/
def Core.bankHeld (k : Core) (plane bank : Nat) : Bool :=
  k.bankUsed plane bank || k.banks.any (fun b => b.plane == plane && b.bank == bank)

/-- Cause of a wait on a full engine: MEM_ORDER while the engine itself waits on it (R188, R217). -/
def Core.engineCause (k : Core) (q : Nat) : Nat := if k.memWaits q then 9 else 4

/-- Does a TLOAD or CSLD wait at issue for an incomplete transfer that writes bytes it reads: its reads are made in
the cycles after its issue (R134, R172, R175)? -/
def Core.blockOrder (k : Core) (c l : Nat) : Bool :=
  let lo := cmemBase c + 64 * lAddr l
  k.trans.any (fun x => x.writes && overlaps x.lo x.hi lo (lo + 64 * (if lOp l = 2 then 65 else 4)))

/-- What holds an access word back (R143, R170, R173, R175, R120). -/
def Dev.aHolds (d : Dev) (c : Nat) (w : AWord) : Check :=
  let k := d.core c
  firstCheck [k.waitfCheck w.y d.cycle,
    waitIf (lOp w.l == 1 && k.engineFull (lQ w.l)) (k.engineCause (lQ w.l)) (lQ w.l),
    waitIf ((lOp w.l == 2 || lOp w.l == 3) && (!(k.engine 6).isEmpty || k.blockOrder c w.l)) 9 6,
    waitIf (lOp w.l == 3 && k.bankHeld (lPlane w.l) (lBank w.l)) 8 (lPlane w.l * 4 + lBank w.l),
    waitIf (lOp w.t == 1 && k.engineFull (4 + lSq w.t)) (k.engineCause (4 + lSq w.t)) (4 + lSq w.t)]

/-- The precise fault of a TLOAD whose header, as it stands in core memory at the issue, fails its checks: the word
stays unissued (R134, R144; log entry 74). -/
def Dev.aFaults (d : Dev) (c : Nat) (w : AWord) : Check :=
  faultIf (lOp w.l == 2 && !tableOk (d.cmemRead c (64 * lAddr w.l)).2.1) 4 (hazArg 6 0 0 0)

/-- All checks of an access word, in order. -/
def Dev.aCheck (d : Dev) (c : Nat) (w : AWord) : Check :=
  firstCheck [d.windowCheck c false, aEncoding w, d.aHolds c w, d.aFaults c w]

/-- The generator of a transfer as it starts: with RST its cursor is BASE (R169). -/
def Core.startGen (k : Core) (l : Nat) : AddrGen :=
  if lRst l then { (k.agen (lAg l)) with cur := (k.agen (lAg l)).base } else k.agen (lAg l)

/-- LDQ or STQ: a transfer of the engine of queue q, which starts at the cursor that its generator had before the word,
in core `pre`; the generator moves on by REP patterns (R143, R168–R170). -/
def Core.transferIssue (k pre : Core) (kind : XferKind) (q l cyc pc : Nat) : Core :=
  let g := k.startGen l
  let b := (pre.startGen l).bounds (lRep l)
  let prev := (k.engine q).getLast?
  let cont := !lRst l && !k.agTouched.contains (q * 8 + lAg l) &&
    (match prev with
      | some t => t.agn == lAg l && !t.rst
      | none => (match (k.logsOf q).getLast? with
        | some e => e.agn == lAg l && e.last == k.pushed q && !e.rst
        | none => false))
  let t : Transfer := { seq := k.tno, kind := kind, q := q, agn := lAg l, ag := pre.startGen l, rep := lRep l, cyc := cyc, pc := pc, lo := b.1, hi := b.2,
                        cont := cont, rst := lRst l }
  let k1 := { (k.setAgen (lAg l) { g with cur := addr48 ((g.cur : Int) + (lRep l : Int) * g.adv) }) with
                tno := k.tno + 1, trans := k.trans ++ [t], agTouched := setDel k.agTouched (q * 8 + lAg l) }
  if kind = .load then k1.freeLogs.startLoad q else k1

/-- TLOAD or CSLD (R134, R169): kind, and for a bank 4 × plane + bank. -/
def Core.blockIssue (k : Core) (c : Nat) (kind : XferKind) (q l n cyc pc : Nat) (old : List Byte × List Nat) : Core :=
  let a := cmemBase c + 64 * lAddr l
  { k with tno := k.tno + 1, trans := k.trans ++ [{ seq := k.tno, kind := kind, q := q, cyc := cyc, pc := pc, lo := a, hi := a + 64 * n, buf := old.1, bad := old.2 }] }

/-- AGSET: one field of a generator (R168, R169). -/
def Core.agset (k : Core) (l : Nat) : Core :=
  let g := k.agen (lAg l)
  let v := lValue l
  let g1 := match lField l with
    | 0 => { g with base := v, cur := v }
    | 1 => { g with lines := bitsN v 47 32 + 1, len := (bitsN v 15 0 + 1) * 64 }
    | 2 => { g with stride := signedN v 48 }
    | _ => { g with adv := signedN v 48 }
  { (k.setAgen (lAg l) g1) with agTouched := (List.range 4).foldl (fun s q => setIns s (q * 8 + lAg l)) k.agTouched }

/-- Transfers of an access word: they start at the generators as they were before the word (R143, R169); a load and a
store that share a generator both move its cursor on, the store's RST after the load (log entry 76). -/
def Core.accessTransfers (k : Core) (c : Nat) (w : AWord) (cyc pc : Nat) (old : List Byte × List Nat) : Core :=
  let k1 := match lOp w.l with
    | 1 => k.transferIssue k .load (lQ w.l) w.l cyc pc
    | 2 => k.blockIssue c .table 6 w.l 65 cyc pc old
    | 3 => k.blockIssue c .bank (4 * lPlane w.l + lBank w.l) w.l 4 cyc pc ([], [])
    | _ => k
  if lOp w.t = 1 then k1.transferIssue k .store (4 + lSq w.t) w.t cyc pc else k1

/-- Generators that an AGSET of a word writes. -/
def Core.accessAgsets (k : Core) (w : AWord) : Core :=
  let k1 := if lOp w.l = 4 then k.agset w.l else k
  if lOp w.t = 4 then k1.agset w.t else k1

/-- n stored blocks of core memory and the poisoned ones. -/
def Dev.storedBlocks (d : Dev) (pa n : Nat) : List Byte × List Nat :=
  (cellsAt d.mem pa (64 * n), (List.range n).filter (fun i => d.poison.contains (pa / 64 + i)))

/-- What a TLOAD's blocks hold as it issues. -/
def Dev.tableOld (d : Dev) (c : Nat) (w : AWord) : List Byte × List Nat :=
  if lOp w.l = 2 then d.storedBlocks (cmemBase c + 64 * lAddr w.l) 65 else ([], [])

/-- Issue of one access word (R143). -/
def Dev.issueA (d : Dev) (c : Nat) (w : AWord) : Dev :=
  if !d.mayIssue c false then d
  else match d.aCheck c w with
    | .fault u arg => d.preciseFault c false u arg
    | .wait x => d.streamWait c false x
    | .ok => (d.onCore c (fun k => (k.accessTransfers c w d.cycle k.a.pc (d.tableOld c w)).accessAgsets w)).issued c false w.s w.y

end Sys2Proof.Machine
end

