-- ==== Sys2Proof/Machine/Gate.lean ====
section
/-! DEFINITION. Snapshot generations (12 R351–R353, R355, R356), the commit gate (11 R320–R326) and the stash
directory (R315–R317), and posted reductions with the gate contributions among them (R242, R243, R322). -/

namespace Sys2Proof.Machine

/-! ## Snapshot generations -/

/-- Does Squirrel serve a job (R350, R352)? -/
def Dev.sqrOn (d : Dev) (n : Nat) : Bool := d.bit (aSqr 0x100) 31 && d.stepEn n

/-- A job's registered tensors. -/
def Dev.jobEntries (d : Dev) (n : Nat) : List SqrEntry := d.sqrEntries.filter (fun e => e.job == n)

/-- Page numbers (address / 64 KiB) of a tensor. -/
def SqrEntry.pageNos (e : SqrEntry) : List Nat := (List.range e.pages).map (fun p => e.addr / 0x10000 + p)

/-- Bytes of a registration entry written by Squirrel (R350). -/
def Dev.setEntry (d : Dev) (i off : Nat) (bs : List Byte) : Dev :=
  d.rawWrite (d.addr48 (aSqr 0x104) (aSqr 0x108) 12 + 32 * i + off) bs

/-- METHOD of an entry's next generation: 1 MIRROR, 2 PARITY (R351). An AUTO entry with no two committed
generations is mirrored. -/
def Dev.nextMethod (d : Dev) (e : SqrEntry) : Nat :=
  let small (t : Nat) : Bool := decide (10 * t < e.pages)
  if e.pages < 4096 ∨ e.req = 1 then 1
  else if e.req = 2 then 2
  else match Tbl.look d.sqrPrev e.i with
    | some p => if small p && small e.touched then 2 else 1
    | none => 1

/-- Stage pages freed. -/
def Dev.freeStages (d : Dev) (l : List Nat) : Dev := { d with sqrStage := l.foldl setDel d.sqrStage }

/-- A page at a generation start (R353). -/
def SqrPage.genStart (p : SqrPage) (all : Bool) : SqrPage :=
  if p.touched then { touched := false, send := true, x := none, o := p.x } else { p with send := p.send || all }

/-- One entry at a generation start: METHOD, the pages, what the generation found touched. -/
def Dev.entryStart (d : Dev) (base : Bool) (e : SqrEntry) : Dev :=
  let m := d.nextMethod e
  let n := (e.pageNos.filter (fun pg => (d.sqrPage pg).touched)).length
  let d1 := d.setEntry e.i 8 [BitVec.ofNat 8 (e.job / 4 + e.req * 16 + m * 64)]
  let d2 : Dev := { d1 with sqrTouch := d.sqrTouch.put e.i n, sqrOld := d.sqrOld.put e.i (if (Tbl.look d.sqrOld e.i).isSome then e.method else 0) }
  e.pageNos.foldl (fun d pg => d.setSqrPage pg ((d.sqrPage pg).genStart (base || m == 1))) d2

/-- The method record of a job: bit i is 1 when entry i is PARITY (R351). -/
def Dev.methodRecord (d : Dev) (n : Nat) : List Byte :=
  bytesLE 512 ((d.jobEntries n).foldl (fun w e => if e.method = 2 then w ||| 2 ^ e.i else w) 0)

/-- Generation C + 1 of a job starts (R351–R353). -/
def Dev.genStart (d : Dev) (n : Nat) (base : Bool) : Dev :=
  let j := d.sqrJob n
  let g := (j.com + 1) % 65536
  let d1 := (d.jobEntries n).foldl (fun d e => d.entryStart base e) d
  let slot := d1.addr48 (aSqr (0x208 + 16 * n)) (aSqr (0x20C + 16 * n)) 12
  let d2 : Dev := { d1 with hwSends := d1.hwSends ++
    [{ job := n, rank := d1.fld (aSqr (0x20C + 16 * n)) 31 16, addr := slot + g % 2 * 512, data := d1.methodRecord n, gen := true }] }
  d2.setSqrJob n { j with st := .running, gen := g, base := base, next := none, startPend := false, unacked := 1, stuck := false }

/-- Pages of a job still to be sent by the running generation. -/
def Dev.sendLeft (d : Dev) (n : Nat) : Nat :=
  (d.jobEntries n).foldl (fun s e => s + (e.pageNos.filter (fun pg => (d.sqrPage pg).send)).length) 0

/-- Has the job sends of its running generation not acknowledged, or is it MERGING (R352)? -/
def Dev.snapBusy (d : Dev) (n : Nat) : Bool :=
  let j := d.sqrJob n
  j.st == .merging || (j.st == .running && (j.stuck || decide (0 < j.unacked) || decide (0 < d.sendLeft n)))

/-- Does the Owl or a START request a snapshot of the job (R348, R352)? -/
def Dev.snapReq (d : Dev) (n : Nat) : Bool :=
  decide (d.fld (aOwl 0x104) 7 0 ≤ d.owlScore) || d.owl.force.contains n || (d.sqrJob n).startPend

/-- Bits that the step block ORs into word G (R352). -/
def Dev.snapBits (d : Dev) (n : Nat) : Nat :=
  if d.sqrOn n then b2n (d.snapReq n) * 2 ^ 31 + b2n (d.snapBusy n) * 2 ^ 30 + b2n (d.sqrJob n).lost * 2 ^ 29 else 0

/-- Commit of the running generation: C becomes C + 1, TOUCHED of the entries is written (R350, R352). -/
def Dev.genCommit (d : Dev) (n : Nat) : Dev :=
  let j := d.sqrJob n
  let d1 := (d.jobEntries n).foldl (fun d e =>
    { (d.setEntry e.i 29 (bytesLE 3 (d.sqrTouch.getD e.i 0))) with
        sqrPrev := if d.sqrCom.contains e.i then d.sqrPrev.put e.i e.touched else d.sqrPrev, sqrCom := setIns d.sqrCom e.i }) d
  d1.setSqrJob n { j with st := .committed, com := j.gen }

/-- Release of the old copies of a job's pages (R352, R353). -/
def Dev.releaseOld (d : Dev) (n : Nat) : Dev :=
  let pgs := (d.jobEntries n).flatMap SqrEntry.pageNos
  let d1 := d.freeStages (pgs.filterMap (fun pg => (d.sqrPage pg).o))
  pgs.foldl (fun d pg => d.setSqrPage pg { (d.sqrPage pg) with o := none }) d1

/-- A decision advances the snapshot state of the job (R352). -/
def Dev.snapDecide (d : Dev) (n word : Nat) : Dev :=
  if !d.sqrOn n then d
  else
    let j := d.sqrJob n
    match j.st with
    | .idle => if bitN word 31 ∧ ¬ bitN word 30 then d.setSqrJob n { j with next := some (bitN word 29) } else d
    | .running => if bitN word 30 then d else d.genCommit n
    | .committed => (d.releaseOld n).setSqrJob n { j with st := .merging }
    | .merging => d

/-! ## Commit gate -/

/-- State of a gate: 0 NONE, 1 COLLECTING, 2 REDUCING, 3 OPEN, 4 CLOSED, 5 FAILED, 6 POISONED. -/
def Dev.gate (d : Dev) (n : Nat) : Nat := d.fld (aStepJ n 0x1C) 3 0

/-- Address of a job's gate line (R320). -/
def Dev.gateLine (d : Dev) (n : Nat) : Nat := d.addr48 (aStepJ n 0xC) (aStepJ n 0x10) 7

/-- Ticks since an earlier tick, as a saturating register holds them. -/
def Dev.since (d : Dev) (t : Nat) : Word := BitVec.ofNat 32 (min (d.tick - t) 0xFFFFFFFF)

/-- The gate decides from a word and the poison of its block (R323, R324, R352). -/
def Dev.gateDecide (d : Dev) (n word : Nat) (poison : Bool) : Dev :=
  let d1 := d.setReg (aStepJ n 0x24) (d.since (d.armT.getD n 0))
  if poison ∨ bitN word 15 then
    (((d1.setF (aStepJ n 0x1C) 3 0 6).setF (aStepJ n 0x1C) 23 16 0x12).raise (aStep 0) 1).jobStop n 0x12 0x1FF
  else if word &&& (d.reg (aStepJ n 8)).toNat % 2 ^ 29 ≠ 0 then
    (((d1.setF (aStepJ n 0x1C) 3 0 4).inc (aStepJ n 0x2C))).snapDecide n word
  else (((d1.setF (aStepJ n 0x1C) 3 0 3).inc (aStepJ n 0x28))).snapDecide n word

/-- The gate decides from the block at an offset of its line: 0x00 word G, 0x40 RESULT (R320, R323). -/
def Dev.gateFrom (d : Dev) (n off : Nat) : Dev :=
  let (d1, data, p, nak) := d.hbmRead (d.gateLine n + off)
  d1.gateDecide n (ofBytesLE (data.take 4)) (p || nak)

/-- READY_T of a step, with its limit (R332). -/
def Dev.gateReady (d : Dev) (n : Nat) : Dev :=
  let w := d.since (d.armT.getD n 0)
  let d1 := { (d.setReg (aStepJ n 0x20) w) with readyT := d.readyT.put n d.tick }
  if d.reg (aStep 0x104) ≠ 0 ∧ (d.reg (aStep 0x104)).toNat < w.toNat then (d1.putB (aStepJ n 0x1C) 5 true).raise (aStep 0) 2 else d1

/-- The gate word is posted: the snapshot bits are ORed into G (R352). -/
def Dev.gatePost (d : Dev) (n : Nat) : Dev :=
  let b := d.snapBits n
  let d1 := { d with owl := { d.owl with force := setDel d.owl.force n } }
  if b = 0 then d1 else d1.redPut 6 (d.gateLine n) (bytesLE 4 b) false

/-- GATE_CNT of a job has reached EXPECT (R322, R324). -/
def Dev.gateFull (d : Dev) (n : Nat) : Dev :=
  let d1 := (d.gateReady n).gatePost n
  if d.bit (aStepJ n 4) 30 then { (d1.setF (aStepJ n 0x1C) 3 0 2) with gateSends := d1.gateSends ++ [n] }
  else d1.gateFrom n 0

/-- A contribution to the gate of a job, already applied to G (R322, R324). -/
def Dev.contribution (d : Dev) (n : Nat) : Dev :=
  let g := d.gate n
  if g ∈ [1, 2, 3, 4] then
    let c := min (d.fld (aStepJ n 0x18) 23 0 + 1) 0xFFFFFF
    let d1 := d.setReg (aStepJ n 0x18) (BitVec.ofNat 32 c)
    if g = 1 then (if c = d.fld (aStepJ n 0x14) 23 0 then d1.gateFull n else d1)
    else if g = 2 then d1 else d1.raise (aStep 0) 4
  else d

/-- A reduction applied at its home slice, past Squirrel, with its contribution to the gates of the line (R242,
R322). -/
def Dev.redApply (d : Dev) (op pa : Nat) (data : List Byte) (p : Bool) : Dev :=
  let d1 := d.redPut op pa data p
  if op = 6 ∧ pa % 128 = 0 ∧ data.length = 64 then
    ((List.range 64).filter (fun n => d.gateLine n == pa && decide (d.gate n ≠ 0))).foldl Dev.contribution d1
  else d1

/-- A posted reduction of up to 64 bytes within one block (R242, R243, R353). -/
def Dev.postRed (d : Dev) (die op pa : Nat) (data : List Byte) (p : Bool) : Dev :=
  if hbmEnd ≤ pa ∨ pa % redWidth op ≠ 0 ∨ data.length % redWidth op ≠ 0 then d.badOp (d.refuser die pa)
  else
    let (d1, held) := (d.crossDie die pa).sqrHold { addr := pa, data := data, poison := p, red := some op }
    if held then d1 else d1.redApply op pa data p

/-! ## ARM and the stash directory -/

/-- No core of the job has a stream RUNNING or STOPPED (R325). -/
def Dev.jobQuiet (d : Dev) (n : Nat) : Bool :=
  (d.jobCores n).all (fun c => [(d.core c).x.st, (d.core c).a.st].all (fun s => s != .running && s != .stopped))

/-- COUNT and address of the stash directory (R315). -/
def Dev.dirCount (d : Dev) (n : Nat) : Nat := d.fld (aStash n 0x10) 30 16
def Dev.dirAddr (d : Dev) (n : Nat) : Nat := d.addr48 (aStash n 0xC) (aStash n 0x10) 6

/-- Is an ARM not performed (R325)? -/
def Dev.armBad (d : Dev) (n : Nat) : Bool :=
  !d.stepEn n || decide (d.fld (aStepJ n 0x14) 23 0 = 0) || decide (16384 < d.dirCount n)
    || (d.bit (aStepJ n 4) 30 && decide (d.fld (aFabColl (d.fld (aStepJ n 4) 19 16) 4) 29 24 ≠ n))

/-- A write to HBM by the step block itself. -/
def Dev.stepWrite (d : Dev) (pa : Nat) (data : List Byte) : Dev :=
  (cutBlocks pa data).foldl (fun d q => d.hbmWrite q.1 q.2 false) d

/-- An accepted ARM (R324). -/
def Dev.armAccept (d : Dev) (n : Nat) : Dev :=
  let d1 := d.stepWrite (d.gateLine n) (List.replicate 128 0)
  let d2 := [0x18, 0x20, 0x24].foldl (fun d o => d.setReg (aStepJ n o) 0) d1
  let d3 := { (d2.setReg (aStepJ n 0x1C) 0x11) with
                armT := d2.armT.put n d.tick, armHwm := d2.armHwm.put n (d.reg (aStash n 8)).toNat }
  match (d3.sqrJob n).next with
  | some base => if d3.sqrOn n then d3.genStart n base else d3
  | none => d3

/-- Is the gate of a job undecided: COLLECTING or REDUCING? -/
def Dev.gateOpen (d : Dev) (n : Nat) : Bool := d.gate n == 1 || d.gate n == 2

/-- A write of ARM (R324, R325): a core RUNNING or STOPPED first, then what is not performed, then the gate's state. -/
def Dev.stepArm (d : Dev) (n : Nat) : Dev :=
  if d.jobQuiet n ∧ d.armBad n then d.raise (aStep 0) 3
  else if d.jobQuiet n = false ∨ d.gateOpen n ∨ d.gate n = 5 ∨ d.gate n = 6 then
    (if d.gateOpen n then d.raise (aStep 0) 3 else d).setF (aStepJ n 0x1C) 23 16 0x0D
  else d.armAccept n

/-- One step of the directory assignment (R316): bytes assigned so far, and the first RECOMPUTE entry. -/
def Dev.assignEntry (hwm n : Nat) (s : Dev × Nat × Option Nat) (i : Nat) : Dev × Nat × Option Nat :=
  let (d0, off, cut) := s
  let a := d0.dirAddr n + 16 * i
  let (d, blk, p, nak) := d0.hbmRead (a / 64 * 64)
  let ent := blk.drop (a % 64)
  let bytes := ofBytesLE (ent.take 4) * 64
  let top := ofBytesLE ((ent.drop 15).take 1) % 64
  if cut = none ∧ p = false ∧ nak = false ∧ off + bytes ≤ 4096 * hwm then
    ((d.stepWrite (a + 4) (bytesLE 4 (off / 4096))).stepWrite (a + 15) (bytesLE 1 (top + 64)), off + roundUp bytes 4096, none)
  else
    ((d.stepWrite (a + 4) (bytesLE 4 0)).stepWrite (a + 15) (bytesLE 1 (top + 128)), off, some (cut.getD i))

/-- The directory assignment of a job completes (R316, R317, R319). -/
def Dev.stashAssign (d : Dev) (n : Nat) : Dev :=
  match Tbl.look d.armHwm n with
  | none => d
  | some hwm =>
    let cnt := d.dirCount n
    let (d1, off, cut) := (List.range cnt).foldl (Dev.assignEntry hwm n) (d, 0, none)
    let d2 := { (d1.putB (aStepJ n 0x1C) 4 false) with armHwm := d1.armHwm.del n }
    ((d2.setReg (aStash n 0x14) (BitVec.ofNat 32 (cut.getD cnt))).setReg (aStash n 0x18) (BitVec.ofNat 32 (off / 4096))).inc
      (aStash n 0x1C) (cnt - cut.getD cnt)

/-- The gate collective has not completed within GLB_STEP_GATE_TMO (R324). -/
def Dev.gateTimeout (d : Dev) (n : Nat) : Dev :=
  if d.gate n = 2 ∧ d.readyT.getD n 0 + d.fld (aStep 0x100) 23 0 ≤ d.tick then d.gateFail n 0x0C else d

/-- The job's gate collective ends with a status (R324). -/
def Dev.gateDone (d : Dev) (n status : Nat) : Dev :=
  if d.gate n ≠ 2 then d
  else if status = 0 then d.gateFrom n 0x40 else d.gateFail n 0x0C

end Sys2Proof.Machine
end

