-- ==== Sys2Proof/Machine/Transfer.lean ====
section
/-! DEFINITION. What the engines of a core do with the transfers issued to them: load entries (06 R175–R177, 07
R200, R207–R210, R214, R219), store blocks (R171, R217), the activation table (04 R134), column scale bank writes
(R120), vector results (R160). -/

namespace Sys2Proof.Machine

/-! ## Banks and engines (R199, R200) -/

/-- Accesses an engine has issued in this cycle. -/
def Core.engNow (k : Core) (e cyc : Nat) : Nat :=
  match Tbl.look k.engUse e with
  | some (c, n) => if c = cyc then n else 0
  | none => 0

/-- Class of an engine's access at its target: its own in its core's memory, REMOTE elsewhere (R207). -/
def classAt (c cls t : Nat) : Nat := if t = c then cls else 2

/-- Does the target of an engine's access take it? -/
def Dev.reaches (d : Dev) (c t : Nat) : Bool := t == c || d.delivers t (d.core c).agent

/-- What makes an access of an engine to any address wait: at core memory its share, bank or the cycle's grants; for HBM a
window or a first-touch copy, which a miss of a reduction waits for too (R200, R208, R242, R245, R353). -/
def Dev.accessWait (d : Dev) (c cls pa : Nat) (read : Bool) : Option Nat :=
  match cmemOf pa with
  | some (t, off) => if d.reaches c t then d.cmemWait t (classAt c cls t) 1 off else none
  | none => match redOf pa with
    | some (_, a) => if d.redWaits a then some 3 else none
    | none => if pa < hbmEnd ∧ (if read then d.hbmWaits pa true else d.missWaits (d.hbmKey pa) false) then some 3 else none

/-- Slots and banks that an access takes. -/
def Dev.accessGrant (d : Dev) (c cls e pa : Nat) : Dev :=
  let d1 := d.onCore c (fun k => { k with engUse := k.engUse.put e (d.cycle, k.engNow e d.cycle + 1) })
  match cmemOf pa with
  | some (t, off) => if d.reaches c t then d1.cmemGrant t (classAt c cls t) 1 off else d1
  | none => d1

/-- An access waits: at core memory and at a home slice the wait is counted where it happens (R200, R208, R248). -/
def Dev.accessHeld (d : Dev) (c cls pa w : Nat) : Dev :=
  match cmemOf pa with
  | some (t, _) => d.cmemHeld t (classAt c cls t) w
  | none => d.sliceHeld ((redOf pa).elim pa (fun p => p.2))

/-- A read by an engine of core c: its own memory without the router, anything else as a requester of its die. -/
def Dev.engineRead (d : Dev) (c pa : Nat) : Dev × Got :=
  match cmemOf pa with
  | some (t, off) =>
    if t = c then (let (d1, data, p) := d.cmemRead c off; (d1, ⟨data, p, false⟩))
    else d.devRead (dieOf c) (d.core c).agent pa
  | none => d.devRead (dieOf c) (d.core c).agent pa

/-! ## Loads -/

/-- A transfer of a core by number. -/
def Core.tran (k : Core) (n : Nat) : Option Transfer := k.trans.find? (fun t => t.seq == n)

/-- A bus error of a transfer: recorded once, with the first block it affects (R171). -/
def Dev.transferErr (d : Dev) (c unit : Nat) (t : Transfer) (pa : Nat) : Dev :=
  if t.berr then d
  else (d.busError c unit t.pc pa).onCore c (fun k => match k.tran t.seq with
    | some x => k.setTrans { x with berr := true }
    | none => k)

/-- The replay read next due on a queue (R219). -/
def Core.replayNext (k : Core) (q cyc : Nat) : Option (Nat × Nat) :=
  if (k.rbuf.getD q []).length < 64 ∧ k.replayAt + 20 ≤ cyc then (k.replay.getD q []).head? else none

/-- One replay read of a queue (R219). -/
def Dev.replayRead (d : Dev) (c q seq pa : Nat) : Dev :=
  let (d1, g) := (d.accessGrant c 0 q pa).engineRead c pa
  (d1.inc (aCmem c 0x130)).onCore c (fun k =>
    { k with replay := k.replay.store [] q ((k.replay.getD q []).drop 1), progress := true
             rbuf := k.rbuf.store [] q (k.rbuf.getD q [] ++ [{ data := g.data, poison := g.poison, addr := pa, tile := seq, due := d.cycle }]) })

/-- PREFETCH_DEPTH of a queue (R214). -/
def Dev.depth (d : Dev) (c q : Nat) : Nat := d.fld (aCmem c 0x104) (4 * q + 3) (4 * q)

/-- Number of a tile: transfer and pattern. -/
def Transfer.tileNo (t : Transfer) : Nat := 65536 * t.seq + t.done / max 1 t.ag.pat

/-- Tiles of a queue with an entry not yet taken. -/
def Core.tiles (k : Core) (q : Nat) : Nat := ((k.queue q).foldl (fun s e => setIns s e.tile) []).length

/-- May the first transfer of a load engine push its next entry (R170, R172, R175, R214)? -/
def Dev.loadReady (d : Dev) (c q : Nat) : Option Transfer :=
  let k := (d.core c).startLoad q
  match k.engine q with
  | [] => none
  | t :: _ =>
    let fresh := t.done % max 1 t.ag.pat = 0
    if t.logged ∧ (t.done ≠ 0 ∨ (t.cyc + 20 ≤ d.cycle ∧ k.orderWaits t = false)) ∧ 0 < k.space q
        ∧ k.engNow q d.cycle < 2 ∧ (¬ fresh ∨ k.tiles q < d.depth c q) then some t else none

/-- One entry of a load pushed (R170, R171, R177, R214). -/
def Dev.loadPush (d : Dev) (c q : Nat) (t : Transfer) : Dev :=
  let pa := t.nextAddr
  let d0 := d.onCore c (fun k => k.startLoad q)
  let (d1, g) := (d0.accessGrant c 0 q pa).engineRead c pa
  let d2 := d1.onCore c (fun k =>
    let k1 := k.push q [{ data := g.data, poison := g.poison || g.refused, addr := pa, tile := t.tileNo, due := d.cycle }]
    let k2 := k1.setTrans { t with done := t.done + 1 }
    if t.done + 1 = t.entries then (k2.dropTrans t.seq).startLoad q else k2)
  if g.refused then d2.transferErr c 4 t pa else d2

/-- Can a replay read of a core's queues go now? Replay reads come first within READ (R219). -/
def Dev.replayDue (d : Dev) (c : Nat) : Bool :=
  (List.range 4).any (fun q => decide ((d.core c).engNow q d.cycle < 2) && (match (d.core c).replayNext q d.cycle with
    | some (_, pa) => (d.accessWait c 0 pa true).isNone
    | none => false))

/-- LOAD_ENTRY_PUSH: a replay read, or else the next entry of the engine's transfer, once no replay read can go. -/
def Dev.loadEntry (d : Dev) (c q : Nat) : Dev :=
  let k := d.core c
  if 2 ≤ k.engNow q d.cycle ∨ k.inReset then d
  else match k.replayNext q d.cycle with
    | some (seq, pa) =>
      (match d.accessWait c 0 pa true with
       | some w => d.accessHeld c 0 pa w
       | none => d.replayRead c q seq pa)
    | none =>
      match d.loadReady c q with
      | none => d
      | some t =>
        match d.accessWait c 0 t.nextAddr true with
        | some w => d.accessHeld c 0 t.nextAddr w
        | none => if (k.stopping && !k.chainLag) ∨ d.replayDue c then d else d.loadPush c q t

/-! ## Stores -/

/-- The target of a store's block performs it, sinks it, or there is none. -/
inductive StoreEnd where
  | done | sunk | refused
  deriving DecidableEq, Repr

/-- One 64-byte block written by a store engine of core c (R171, R210, R242). -/
def Dev.engineWrite (d : Dev) (c pa : Nat) (data : List Byte) (p : Bool) : Dev × StoreEnd :=
  if pa < hbmEnd then
    let (d1, ok) := d.devWrite (dieOf c) (d.core c).agent pa data p
    (d1, if ok then .done else .refused)
  else match cmemOf pa with
    | some (t, off) =>
      if t = c then (d.cmemWrite c off data p, .done)
      else
        let (d1, ok) := d.devWrite (dieOf c) (d.core c).agent pa data p
        (d1, if ok then .done else .sunk)
    | none =>
      match redOf pa with
      | some (op, a) => (d.postRed (dieOf c) op a data p, if a < hbmEnd ∧ d.nakked a = false then .done else .refused)
      | none => (d, .refused)

/-- A store with every entry written and acknowledged is complete. -/
def Core.storeEnd (k : Core) (n : Nat) : Core :=
  match k.tran n with
  | some t => if t.done = t.entries ∧ k.unacked.all (fun u => u.1 != n) then k.dropTrans n else k
  | none => k

/-- May the first transfer of a store engine write its next block (R172, R175, R217)? -/
def Dev.storeReady (d : Dev) (c sq : Nat) : Option (Transfer × QEntry) :=
  let k := d.core c
  match (k.engine (4 + sq)).head?, (k.queue (4 + sq)).head? with
  | some t, some e =>
    if t.done < t.entries ∧ k.engNow (4 + sq) d.cycle < 2 ∧ e.due + (if t.done = 0 then 4 else 0) ≤ d.cycle
        ∧ (t.done ≠ 0 ∨ (k.orderWaits t = false ∧ k.rangeHeld t.lo t.hi = false)) ∧ !k.stopping ∧ k.inReset = false then some (t, e) else none
  | _, _ => none

/-- One entry of a store written (R170, R171). -/
def Dev.storePush (d : Dev) (c sq : Nat) (t : Transfer) (e : QEntry) : Dev :=
  let pa := t.nextAddr
  let (d1, r) := (d.accessGrant c 1 (4 + sq) pa).engineWrite c pa e.data e.poison
  let d2 := d1.onCore c (fun k =>
    let k1 := (k.drop (4 + sq) 1).setTrans { t with done := t.done + 1 }
    ({ k1 with unacked := if r = StoreEnd.sunk then k1.unacked ++ [(t.seq, pa, d.cycle)] else k1.unacked }).storeEnd t.seq)
  if r = .refused then d2.transferErr c 5 t pa else d2

/-- STORE_BLOCK_WRITE. -/
def Dev.storeBlock (d : Dev) (c sq : Nat) : Dev :=
  match d.storeReady c sq with
  | none => d
  | some (t, e) =>
    match d.accessWait c 1 t.nextAddr false with
    | some w => d.accessHeld c 1 t.nextAddr w
    | none => d.storePush c sq t e

/-- STORE_WRITE_TIMEOUT: the oldest write with no acknowledgement within 20 µs, 38,000 cycles at 1.9 GHz (R171). -/
def Dev.storeTimeout (d : Dev) (c : Nat) : Dev :=
  match (d.core c).unacked with
  | [] => d
  | (n, pa, cyc) :: rest =>
    if d.cycle < cyc + 38000 then d
    else
      let d1 := match (d.core c).tran n with
        | some t => d.transferErr c 5 t pa
        | none => d
      d1.onCore c (fun k => ({ k with unacked := rest, progress := true }).storeEnd n)

/-! ## Activation table and column scale banks -/

/-- A precise fault found after its word has issued: record with that word, the stream FAULTED, the job stopped
(R134, R144, R197). -/
def Dev.lateFault (d : Dev) (c : Nat) (exec : Bool) (unit pc arg : Nat) : Dev :=
  let d1 := (d.faultRec c exec unit 0x03 pc arg 0).raise (aCctl c 0) 0
  (d1.onCore c (fun k => k.setStream exec (k.stream exec).fault)).coreJobStop c 0x03

/-- n blocks of a core's memory: bytes and the poisoned ones. -/
def Dev.readBlocks (d : Dev) (c pa n : Nat) : Dev × List Byte × List Nat :=
  (List.range n).foldl (fun (s : Dev × List Byte × List Nat) i =>
    let (d1, data, p) := s.1.cmemRead c ((pa - cmemBase c) + 64 * i)
    (d1, s.2.1 ++ data, if p then s.2.2 ++ [i] else s.2.2)) (d, [], [])

/-- The read of a TLOAD or CSLD next due, one in a cycle in ascending order (R134, R169, R200). -/
def Dev.blockNext (d : Dev) (c : Nat) : Option (Transfer × Nat) :=
  let k := d.core c
  match (k.engine 6).head? with
  | some t => if t.done < t.entries ∧ t.cyc < d.cycle ∧ k.orderWaits t = false then some (t, t.lo + 64 * t.done - cmemBase c) else none
  | none => none

/-- One cycle of the TLOAD and CSLD engine: its next read takes its READ slot and its bank, behind every replay read (R207,
R219). -/
def Dev.blockTick (d : Dev) (c : Nat) : Dev :=
  match d.blockNext c with
  | none => d
  | some (t, off) =>
    match d.cmemWait c 0 1 off with
    | some w => d.cmemHeld c 0 w
    | none => if d.replayDue c then d else (d.cmemGrant c 0 1 off).onCore c (fun k => k.setTrans { t with done := t.done + 1 })

/-- The transfer of the TLOAD and CSLD engine, once every read of it has been granted. -/
def Dev.blockReady (d : Dev) (c : Nat) (kind : XferKind) (lat : Nat) : Option Transfer :=
  let k := d.core c
  match (k.engine 6).head? with
  | some t => if t.kind = kind ∧ t.cyc + lat ≤ d.cycle ∧ k.orderWaits t = false ∧ t.done = t.entries then some t else none
  | none => none

/-- Block i of a run of blocks. -/
def blockAt (l : List Byte) (i : Nat) : List Byte := (l.drop (64 * i)).take 64

/-- Blocks of a table that another agent has written since the load issued (R134). -/
def Dev.tableWritten (d : Dev) (t : Transfer) : List Nat :=
  let now := d.storedBlocks t.lo 65
  (List.range 65).filter (fun i => blockAt t.buf i != blockAt now.1 i || t.bad.contains i != now.2.contains i)

/-- The table as it was read: of a block among those written meanwhile either contents, as a free bit says (R134; log entry 77). -/
def Dev.tableRead (d : Dev) (w : List Nat) (t : Transfer) (bs : List Byte) (bad : List Nat) : Dev × List Byte × List Nat :=
  let old (i : Nat) : Bool := w.contains i && (Config.freeByte d.free i).getLsbD 0
  if w.isEmpty then (d, bs, bad)
  else (d.useFree, (List.range 65).flatMap (fun i => if old i then blockAt t.buf i else blockAt bs i),
    (List.range 65).filter (fun i => if old i then t.bad.contains i else bad.contains i))

/-- TABLE_LOAD_DONE: the checks are made again on the bytes read, which another agent may have written since the issue
(R134; log entry 74). -/
def Dev.tableDone (d : Dev) (c : Nat) : Dev :=
  match d.blockReady c .table 65 with
  | none => d
  | some t =>
    let (d0, bs0, bad0) := d.readBlocks c t.lo 65
    let (d1, bs, bad) := d0.tableRead (d.tableWritten t) t bs0 bad0
    let d2 := d1.onCore c (fun k => { (k.dropTrans t.seq) with progress := true })
    if tableOk bs then d2.onCore c (fun k => { k with table := bs, tableBad := bad })
    else d2.lateFault c false 4 t.pc (hazArg 6 0 0 0)

/-- A bank write takes effect (R120). -/
def Dev.bankStore (d : Dev) (c : Nat) (w : BankWrite) : Dev :=
  let d1 := w.vals.zipIdx.foldl (fun (d : Dev) p => d.setReg (bankReg c w.plane w.bank (w.first + p.2)) p.1) d
  d1.onCore c (fun k => { k with progress := true, bankBad := (List.range w.vals.length).foldl (fun s i =>
    if w.bad.contains (w.first + i) then setIns s (bankKey w.plane w.bank (w.first + i)) else setDel s (bankKey w.plane w.bank (w.first + i))) k.bankBad })

/-- BANK_WRITE_APPLY: the oldest held write of a bank, or the CSLD that writes it (R120, R169). -/
def Dev.bankApply (d : Dev) (c plane bank : Nat) : Dev :=
  let k := d.core c
  if k.bankUsed plane bank then d
  else match k.banks.find? (fun b => b.plane == plane && b.bank == bank) with
    | some w =>
      if w.due ≤ d.cycle then (d.onCore c (fun k => { k with banks := k.banks.erase w })).bankStore c w else d
    | none =>
      match d.blockReady c .bank 4 with
      | none => d
      | some t =>
        if t.q = 4 * plane + bank then
          let (d1, bs, bad) := d.readBlocks c t.lo 4
          (d1.onCore c (fun k => k.dropTrans t.seq)).bankStore c
            ⟨plane, bank, 0, (chunksOf 4 bs).map (fun x => BitVec.ofNat 32 (ofBytesLE x)), bad.flatMap (fun i => (List.range 16).map (fun j => 16 * i + j)), 0⟩
        else d

end Sys2Proof.Machine
end

