-- ==== Sys2Proof/Machine/Streams.lean ====
section
/-! DEFINITION. Streams as commands from outside and as the clock see them: START, HALT, flags (05 R166, 06 R180,
R181, R189, R198), the Badger (R186–R188), the counters that count cycles, core-memory housekeeping (07 R205, R206,
R208). -/

namespace Sys2Proof.Machine

/-! ## Start and halt -/

/-- START of one stream (R189, R198): IDLE or HALTED only; an empty window halts at once. -/
def Dev.startStream (d : Dev) (c : Nat) (exec : Bool) : Dev :=
  d.onCore c (fun k =>
    let s := k.stream exec
    if s.st = .idle ∨ s.st = .halted then
      { (k.setStream exec { s with st := if d.windowLen c exec = 0 then .halted else .running, pc := 0, halting := false,
                                   wait := none, nextIssue := d.cycle }) with atEpoch := false }
    else k)

/-- A write of STRM_START. -/
def Dev.strmStart (d : Dev) (c : Nat) (x a : Bool) : Dev :=
  if (d.core c).inReset then d
  else
    let d1 := if x then d.startStream c true else d
    if a then d1.startStream c false else d1

/-- Are the units of a stream idle (R166): operations, drains and vector results of the execute stream, transfers of
the access stream? -/
def Core.unitsIdle (k : Core) (exec : Bool) (cyc : Nat) : Bool :=
  if exec then k.ops.isEmpty && k.drains.isEmpty && k.drain.isNone && k.vpend.all (fun p => decide (p.due ≤ cyc))
  else k.trans.isEmpty

/-- STREAM_HALTED (R166); the core may reach its other stream's epoch by it (R427). -/
def Dev.streamHalted (d : Dev) (c : Nat) (exec : Bool) : Dev :=
  d.onCore c (fun k =>
    let s := k.stream exec
    if s.st = .running ∧ s.halting ∧ k.unitsIdle exec d.cycle then
      let o := k.stream (!exec)
      { (k.setStream exec { s with st := .halted, halting := false, wait := none }) with atEpoch := o.st == .running && o.epoch != 0 }
    else k)

/-! ## The Badger (R186–R188) -/

/-- Is a stream blocked: its next word waits on one of R186's conditions? -/
def Stream.blocked (s : Stream) : Bool :=
  s.st == .running && (match s.wait with
    | some w => decide (w.cause ≤ 9)
    | none => false)

/-- Is the stream blocked or HALTED? -/
def Stream.stuck (s : Stream) : Bool := s.blocked || s.st == .halted

/-- Is the count held at 0 (R187; a plane that waits for leave, or for the open decision, counts as PAUSED, R340, R416)? -/
def Dev.badgerHeld (d : Dev) (c : Nat) : Bool :=
  let k := d.core c
  [k.x, k.a].any (fun s => s.st == .faulted || s.wait == some ⟨16, 0⟩)
    || [0, 1, 2].any (fun p => (k.edge p).paused || (k.edge p).held.isSome)
    || d.leaveQ.any (fun r => r.core == c) || k.ctx.isSome || !d.bit (aCctl c 0x104) 31

/-- The Badger's count after a cycle (R187). -/
def Dev.badgerNext (d : Dev) (c : Nat) : Nat :=
  let k := d.core c
  if d.badgerHeld c then 0
  else if k.x.stuck && k.a.stuck && (k.x.blocked || k.a.blocked) && !k.progress then k.badger + 1 else 0

/-- A wait as CCTL_DL_WAIT shows it. -/
def Stream.waitWord (s : Stream) : Word :=
  match s.wait with
  | some w => if s.blocked then BitVec.ofNat 32 (2 ^ 28 * w.cause + w.arg % 65536) else 0
  | none => 0


/-- Transfers held per engine, 2 bits each. -/
def Core.engWord (k : Core) : Word :=
  BitVec.ofNat 32 ((List.range 6).foldl (fun n q => n + (k.engine q).length * 4 ^ q) 0)

/-- The report registers CCTL_DL_*; a report is held until DEADLOCK is cleared (R188). -/
def Dev.badgerRegs (d : Dev) (c : Nat) : Dev :=
  let k := d.core c
  if d.bit (aCctl c 0x10) 1 then d
  else
    [(0x160, BitVec.ofNat 32 (k.x.pc % 2 ^ 20)), (0x164, BitVec.ofNat 32 (k.a.pc % 2 ^ 20)), (0x168, k.x.waitWord),
     (0x16C, k.a.waitWord), (0x170, BitVec.ofNat 32 k.flags), (0x174, BitVec.ofNat 32 (k.fill2 d.cycle 0)),
     (0x178, BitVec.ofNat 32 (k.fill2 d.cycle 2)), (0x17C, BitVec.ofNat 32 (k.fill2 d.cycle 4)), (0x180, k.engWord)].foldl (fun (d : Dev) p => d.setReg (aCctl c p.1) p.2) d

/-- A RUNNING or HALTED stream becomes DEADLOCKED. -/
def Stream.deadlock (s : Stream) : Stream :=
  if s.st = .running ∨ s.st = .halted then { s with st := .deadlocked, wait := none, halting := false } else s

/-- BADGER_REPORT (R188, R345). -/
def Dev.badgerReport (d : Dev) (c : Nat) : Dev :=
  let k := d.core c
  if k.badger < d.fld (aCctl c 0x104) 23 0 ∨ d.badgerHeld c then d
  else
    let ex := k.x.blocked
    let d1 := (d.badgerRegs c).faultRec c ex 0 0x04 (if ex then k.x.pc else k.a.pc) 0 0
    let d2 := ((d1.raise (aCctl c 0) 1).inc (aCctl c 0x10C)).onCore c (fun k => { k with x := k.x.deadlock, a := k.a.deadlock, badger := 0 })
    d2.coreJobStop c 0x04

/-! ## What one cycle counts -/

/-- Transfers that R175 holds back before their first entry: those at the head of their engines, and a TLOAD or CSLD
that waits at issue. -/
def Core.orderWaiting (k : Core) : Nat :=
  ((List.range 6).filter (fun q => match (k.engine q).head? with
    | some t => decide (t.done = 0) && k.orderWaits t
    | none => false)).length
    + b2n (k.a.st == .running && k.a.wait == some ⟨9, 6⟩ && (k.engine 6).isEmpty)

/-- Stores that a held range holds back (R217). -/
def Core.holdWaiting (k : Core) : Nat :=
  ([4, 5].filter (fun q => match (k.engine q).head? with
    | some t => decide (t.done = 0) && !k.orderWaits t && k.rangeHeld t.lo t.hi
    | none => false)).length

/-- Addresses of the accesses that a core's engines have to make now, with their class and whether they read. -/
def Dev.engineWants (d : Dev) (c : Nat) : List (Nat × Nat × Bool) :=
  ((List.range 4).flatMap (fun q => match (d.core c).replayNext q d.cycle with
      | some p => [(0, p.2, true)]
      | none => match d.loadReady c q with
        | some t => [(0, t.nextAddr, true)]
        | none => []))
    ++ ([0, 1].flatMap (fun sq => match d.storeReady c sq with
      | some p => [(1, p.1.nextAddr, false)]
      | none => []))

/-- The waits of a core's engines in one cycle on a class's share or at a home slice are counted where they wait (R208,
R248). -/
def Dev.waitTick (d : Dev) (c : Nat) : Dev :=
  (d.engineWants c).foldl (fun d p => match d.accessWait c p.1 p.2.1 p.2.2 with
    | some w => if w = 0 ∨ w = 3 then d.accessHeld c p.1 p.2.1 w else d
    | none => d) d

/-- Does a plane's edge wait on the chain for data or credits (R95)? An operation of the joined plane counts once. -/
def Dev.chainWaiting (d : Dev) (c p : Nat) : Bool :=
  match (d.core c).injecting p with
  | none => false
  | some o => o.planes.head? == some p && d.edgeReady c o && ((mBsrc o.w == 1 && (match (d.core c).chainIn.head? with
      | some x => x.cno != o.cno || decide (d.cycle < x.due)
      | none => true)) || (match d.forwardsTo c o with
      | some x => !d.chainRoom x (mKsteps o.w o.inj)
      | none => false))

/-- Is a plane's edge held under R77, R83 or R90: one of its operation's edges is free, and the operation may not enter?
An operation of the joined plane counts once (log entry 73). -/
def Dev.edgeWaiting (d : Dev) (c p : Nat) : Bool :=
  let k := d.core c
  match k.entering p with
  | some o => o.planes.all (fun q => k.entering q == some o) && o.planes.head? == some p && o.planes.any (fun q => k.edgeFree q d.cycle)
      && decide (o.cyc + 4 ≤ d.cycle) && k.entryHeld o d.cycle
  | none => false

/-- What a core's edges and its TLOAD and CSLD engine do in a cycle of their own: preloads, delays that proceed, one block
read (R89, R134, R492). -/
def Dev.edgeTick (d : Dev) (c : Nat) : Dev :=
  if (d.core c).inReset then d else [0, 1].foldl (fun d p => d.delayMark c p) ((d.preTick c).blockTick c)

/-- Counters that count a cycle of a core, and the Badger (R83, R95, R175, R183, R187, R208, R217). -/
def Dev.coreTick (d : Dev) (c : Nat) : Dev :=
  let k := d.core c
  let n := d.badgerNext c
  let counts : List (Nat × Nat) := [(aStrm c 0x154, k.orderWaiting), (aCmem c 0x12C, k.holdWaiting),

    (aCctl c 0x108, ([k.x, k.a].filter (fun s => s.st == .running && (s.wait.map (fun w => w.cause)) == some 7)).length),
    (aPln c 0x11C, ([0, 1].filter (d.edgeWaiting c)).length), (aPln c 0x120, ([0, 1].filter (d.chainWaiting c)).length)]
  let d1 := counts.foldl (fun (d : Dev) p => if p.2 = 0 then d else d.inc p.1 p.2) d
  let due := k.flagDue.filter (fun p => decide (p.2 ≤ d.cycle + 1))
  let d2 := d1.onCore c (fun k =>
    let k1 := k.undrain.foldl (fun (k : Core) key => k.setSlot key { (k.slot key) with draining := false }) k
    { ({ k1 with progress := false } : Core).oweTick with undrain := [], retired := [], badger := n, flagDue := k.flagDue.filter (fun p => !decide (p.2 ≤ d.cycle + 1)) })
  { (due.foldl (fun (d : Dev) p => d.setFlags c (2 ^ p.1)) { d2 with cycle := d.cycle + 1 }) with cycle := d.cycle }


/-! ## Core memory housekeeping -/

/-- CMEM_QUANTUM (R208). -/
def Dev.cmemQuantum (d : Dev) (c : Nat) : Dev :=
  if (d.core c).quantum < d.cycle / 64 then d.onCore c (fun k => { k with quantum := d.cycle / 64, used := [0, 0, 0] }) else d

/-- CMEM_SCRUB_STEP (R205): one block read, and written back when a symbol was corrected, in a cycle in which its bank has no
other grant. -/
def Dev.cmemScrub (d : Dev) (c : Nat) : Dev :=
  let k := d.core c
  let off := 64 * k.scrub
  if !d.bit (aCmem c 0x108) 31 ∨ d.cycle < k.scrubAt + d.fld (aCmem c 0x108) 15 0 ∨ k.clearing.isSome
      ∨ (k.banksNow d.cycle).contains (bankOf off) ∨ 8 ≤ (k.banksNow d.cycle).length then d
  else
    let a := (cmemBase c + off) / 64
    let l := d.errs.getD a []
    let (ce, _) := decode8 l
    let (d1, _, _) := d.cmemRead c off
    let d2 : Dev := { d1 with errs := d1.errs.store [] a (l.filter (fun e => !ce.contains e.cw)) }
    let d3 := d2.onCore c (fun k => { (k.takeBank off d.cycle) with scrub := (k.scrub + 1) % 65536, scrubAt := d.cycle })
    if k.scrub = 65535 then d3.incWrap (aCmem c 0x138) else d3

/-- A core's memory is zero, with no error and no poison in it. -/
def Dev.cmemZero (d : Dev) (c : Nat) : Dev :=
  let lo := cmemBase c
  let out (a : Nat) : Bool := decide (a < lo) || decide (lo + 0x400000 ≤ a)
  { d with mem := d.mem.filter (fun p => out p.1), poison := d.poison.filter (fun b => out (64 * b)),
           errs := d.errs.filter (fun p => out (64 * p.1)) }

/-- CMEM_CLEAR_DONE, 8,192 cycles after its start (R206). -/
def Dev.cmemClearDone (d : Dev) (c : Nat) : Dev :=
  match (d.core c).clearing with
  | some s => if s + 8192 ≤ d.cycle then (d.cmemZero c).onCore c (fun k => { k with clearing := none }) else d
  | none => d

end Sys2Proof.Machine
end

