-- ==== Sys2Proof/Machine/Mesh.lean ====
section
/-! DEFINITION. The mesh as a core's router sees it (01 R29, R30, R48, 07 R204, R208) and in-network reductions
(R38–R43). -/

namespace Sys2Proof.Machine

/-- A mesh packet: a read of n blocks of a core's memory, a write of it, or the response to a read (R29, R30, R204). -/
inductive MeshOp where
  | read (block n : Nat)
  | write (off : Nat) (data : List Byte) (poison : Bool)
  | response (data : List Byte) (poison : Bool)
  deriving DecidableEq, Repr

/-- What the packet's flits met on the mesh and on the bridge: errors (R45, R48), and outputs of each die at which it was
granted because its channel was starved (R34). -/
structure MeshErr where
  starve0 : Nat := 0
  starve1 : Nat := 0
  ce : Nat := 0
  ue : Bool := false
  bce : Nat := 0
  bue : Bool := false
  deriving DecidableEq, Repr

/-- Has a flit of the packet been poisoned on the way? -/
def MeshErr.hit (e : MeshErr) : Bool := e.ue || e.bue

/-- Errors of a packet counted on the pages of the target's die (R48, R49), and its starvation grants (R34). -/
def Dev.meshErrs (d : Dev) (die : Nat) (e : MeshErr) : Dev :=
  let d1 := if e.ce = 0 then d else (d.inc (aNoc die 0x110) e.ce).raise (aNoc die 0) 0
  let d2 := if e.ue then d1.raise (aNoc die 0) 1 else d1
  let d3 := if e.bce = 0 then d2 else (d2.inc (aBrg die 0x108) e.bce).raise (aBrg die 0) 0
  let d4 := if e.bue then (d3.inc (aBrg die 0x10C)).raise (aBrg die 0) 1 else d3
  [(0, e.starve0), (1, e.starve1)].foldl (fun (d : Dev) p => if p.2 = 0 then d else d.inc (aNoc p.1 0x10C) p.2) d4

/-- The response to a read, kept as the last completion. -/
def Dev.respond (d : Dev) (data : List Byte) (p : Bool) : Dev := { d with rdata := data, rpoison := p, rur := false, rref := false }

/-- The response that a router returns for a read it sinks: poison on every block, and the refused mark (R30); its bytes are
zeros (log entry 118). -/
def Dev.respondRefused (d : Dev) (n : Nat) : Dev := { (d.respond (List.replicate (64 * n) 0) true) with rref := true }

/-- Is a mesh write one that core memory performs: a whole block, or 4 to 60 bytes aligned to 4 within one (R204)? -/
def meshWriteOk (off : Nat) (data : List Byte) : Bool :=
  decide (off % 4 = 0) && decide (data.length % 4 = 0) && decide (0 < data.length) && decide (off % 64 + data.length ≤ 64)

/-- n blocks of a core's memory from a block on: their bytes, and the poison of any. -/
def Dev.cmemReadN (d : Dev) (c b n : Nat) : Dev × List Byte × Bool :=
  (List.range n).foldl (fun (s : Dev × List Byte × Bool) i =>
    let (d1, data, p) := s.1.cmemRead c (64 * ((b + i) % 65536))
    (d1, s.2.1 ++ data, s.2.2 || p)) (d, [], false)

/-- A packet delivered by the router of core c, within the REMOTE share, the banks and the cycle's grants (R200, R204, R208). A
response has its requester's engine as its end. -/
def Dev.meshServe (d : Dev) (c : Nat) (op : MeshOp) (e : MeshErr) : Dev :=
  match op with
  | .read b n =>
    (match (List.range n).findSome? (fun i => d.cmemWait c 2 n (64 * ((b + i) % 65536))) with
    | none =>
      let d1 := (List.range n).foldl (fun d i => d.cmemGrant c 2 1 (64 * ((b + i) % 65536))) d
      let (d2, data, p) := (d1.meshErrs (dieOf c) e).cmemReadN c b n
      (d2.poisonSent (dieOf c) (p || e.hit)).respond data (p || e.hit)
    | some w => d.cmemHeld c 2 w)
  | .write off data p =>
    let n := if data.length = 64 then 1 else 2
    if !meshWriteOk off data then d
    else (match d.cmemWait c 2 n (off % 0x400000) with
    | none =>
      let d1 := ((d.cmemGrant c 2 n (off % 0x400000)).meshErrs (dieOf c) e).poisonSent (dieOf c) (p || e.hit)
      if data.length = 64 then d1.cmemWrite c (off % 0x400000) data (p || e.hit) else d1.cmemPart c (off % 0x400000) data (p || e.hit)
    | some w => d.cmemHeld c 2 w)
  | .response _ p => (d.meshErrs (dieOf c) e).poisonSent (dieOf c) (p || e.hit)

/-- MESH_PACKET_DELIVER: delivered or sunk; a sunk response is discarded (R29, R30). -/
def Dev.meshDeliver (d : Dev) (c : Nat) (job : Option Nat) (op : MeshOp) (e : MeshErr) : Dev :=
  if d.delivers c job then d.meshServe c op e
  else
    let d1 := (d.meshErrs (dieOf c) e).sink c
    match op with
    | .read _ n => (d1.poisonSent (dieOf c) true).respondRefused n
    | .write _ _ p => d1.poisonSent (dieOf c) (p || e.hit)
    | .response _ p => d1.poisonSent (dieOf c) (p || e.hit)

/-! ## Reductions -/

/-- Reduction registers; a write through either NOC page reaches those of instance 0 (R38). -/
def Dev.redDst (d : Dev) (i : Nat) : Word := d.reg (aNoc 0 (0x120 + 8 * i))
def Dev.redRect (d : Dev) (i : Nat) : Word := d.reg (aNoc 0 (0x124 + 8 * i))

/-- Is a core inside a reduction's rectangle? -/
def Dev.inRect (d : Dev) (i c : Nat) : Bool :=
  let r := d.redRect i
  decide (Machine.fld r 20 16 ≤ devCol c) && decide (devCol c ≤ Machine.fld r 28 24) && decide (Machine.fld r 3 0 ≤ devRow c) && decide (devRow c ≤ Machine.fld r 11 8)

/-- Is a core a contributor (R38)? -/
def Dev.contributor (d : Dev) (i c : Nat) : Bool :=
  d.inRect i c && decide (d.fpState c = 0) && (d.core c).job == some (Machine.fld (d.redDst i) 21 16)

/-- Does any contributor of a row stand in columns of a test? -/
def Dev.rowHas (d : Dev) (i row : Nat) (f : Nat → Bool) : Bool :=
  (List.range 26).any (fun col => f col && d.contributor i (coreAt row col))

/-- Input ports that a router expects: 0 local, 1 west, 2 east, 3 north, 4 south (R33, R39). -/
def Dev.redPorts (d : Dev) (i c : Nat) : List Nat :=
  let r := devRow c
  let col := devCol c
  let dc := Machine.fld (d.redDst i) 8 4
  let dr := Machine.fld (d.redDst i) 3 0
  let any (rows : List Nat) : Bool := rows.any (fun x => d.rowHas i x (fun _ => true))
  (if d.contributor i c then [0] else [])
    ++ (if col ≤ dc ∧ d.rowHas i r (fun x => decide (x < col)) then [1] else [])
    ++ (if dc ≤ col ∧ d.rowHas i r (fun x => decide (col < x)) then [2] else [])
    ++ (if col = dc ∧ r ≤ dr ∧ any (List.range r) then [3] else [])
    ++ (if col = dc ∧ dr ≤ r ∧ any ((List.range 12).filter (fun x => decide (r < x))) then [4] else [])

/-- Router and port that a router's sum goes to; `none` at the destination (R33). -/
def Dev.redNext (d : Dev) (i c : Nat) : Option (Nat × Nat) :=
  let r := devRow c
  let col := devCol c
  let dc := Machine.fld (d.redDst i) 8 4
  let dr := Machine.fld (d.redDst i) 3 0
  if col < dc then some (coreAt r (col + 1), 1)
  else if dc < col then some (coreAt r (col - 1), 2)
  else if r < dr then some (coreAt (r + 1) col, 3)
  else if dr < r then some (coreAt (r - 1) col, 4)
  else none

/-- Key of a reduce buffer. -/
def redKey (c i port : Nat) : Nat := (c * 16 + i) * 8 + port

/-- A reduce packet that arrives, and what its flits met. -/
structure RedIn where
  pkt : RedPkt
  err : MeshErr := {}
  deriving DecidableEq, Repr

/-- REDUCE_PACKET_ARRIVE (R40, R42, R45, R48): a stray packet is dropped, any other is buffered, poisoned if a flit of it was hit;
what a neighbour forwarded is what arrives. -/
def Dev.redArrive (d : Dev) (c i port src : Nat) (x : RedIn) : Dev :=
  let key := redKey c i port
  let e := x.err
  let hit (q : RedPkt) : RedPkt := { q with poison := q.poison || e.hit }
  if !flag (d.redDst i) 31 || !d.inRect i src then (d.meshErrs (dieOf c) e).raise (aNoc (dieOf c) 0) 3
  else if (Tbl.look d.redBuf key).isSome then d
  else
    let d1 := d.meshErrs (dieOf c) e
    match d1.redFly.getD key [] with
    | q :: t => { d1 with redBuf := d1.redBuf.put key (hit q), redFly := d1.redFly.store [] key t }
    | [] => { d1 with redBuf := d1.redBuf.put key (hit x.pkt) }

/-- Has a router the credit of an ID for the router its sum goes to: that one's buffer is empty, and nothing is on the way to it
(R40)? -/
def Dev.redCredit (d : Dev) (c i : Nat) : Bool :=
  match d.redNext i c with
  | some (n, port) => (Tbl.look d.redBuf (redKey n i port)).isNone && (d.redFly.getD (redKey n i port) []).isEmpty
  | none => true

/-- Is a chunk the next of its ID at a router: the first of a vector, or the one after the last combined (R40)? -/
def Dev.redInOrder (d : Dev) (c i chunk : Nat) : Bool := chunk == 0 || chunk == d.redNo.getD (16 * c + i) 0

/-- The sum of a router's packets of one chunk, in the ports' order (R39, R41). -/
def redSum (h : RedPkt) (t : List RedPkt) : RedPkt := t.foldl (fun s q => ⟨s.chunk, List.zipWith addF32 s.vals q.vals, s.poison || q.poison⟩) h

/-- A router's buffers of an ID are free, and its next chunk is the one after this. -/
def Dev.redTake (d : Dev) (c i chunk : Nat) (ports : List Nat) : Dev :=
  { d with redBuf := ports.foldl (fun b p => b.del (redKey c i p)) d.redBuf, redNo := d.redNo.put (16 * c + i) (chunk + 1) }

/-- A sum goes to the next router, or at the destination to its core. -/
def Dev.redForward (d : Dev) (c i : Nat) (sum : RedPkt) : Dev :=
  match d.redNext i c with
  | some (n, port) => { d with redFly := d.redFly.put (redKey n i port) (d.redFly.getD (redKey n i port) [] ++ [sum]) }
  | none => { d with redOut := d.redOut.put (redKey c i 0) (d.redOut.getD (redKey c i 0) [] ++ [sum]) }

/-- REDUCE_CHUNK_COMBINE (R39–R41). -/
def Dev.redCombine (d : Dev) (c i : Nat) : Dev :=
  let ports := d.redPorts i c
  let ps := ports.filterMap (fun p => Tbl.look d.redBuf (redKey c i p))
  match ps with
  | [] => d
  | h :: t =>
    if ps.length = ports.length ∧ t.all (fun q => q.chunk == h.chunk) ∧ d.redInOrder c i h.chunk ∧ d.redCredit c i then
      ((d.redTake c i h.chunk ports).poisonSent (dieOf c) (redSum h t).poison).redForward c i (redSum h t)
    else d

/-- Has a reduction ID a chunk in progress (R43, R48)? -/
def Dev.redBusy (d : Dev) (i : Nat) : Bool :=
  (d.redBuf.map (fun p => p.1) ++ d.redFly.map (fun p => p.1)).any (fun k => k / 8 % 16 == i)

end Sys2Proof.Machine
end

