-- ==== Sys2Proof/Machine/Context.lean ====
section
/-! DEFINITION. Saving and restoring a core's context (06 R191–R195, 07 R221, 03 R87, 04 R121). -/

namespace Sys2Proof.Machine

/-! ## Clearing -/

/-- What a core's edges keep when its context goes: checker lanes not acted on (R339). -/
def Core.lanesOff (k : Core) : Tbl PlaneEdge := (k.edges.filter (fun p => p.2.laneOff)).map (fun p => (p.1, { laneOff := true }))

/-- What of a core a cleared context leaves: its job, its reset and clearing, pending pack-unit fences, the use of
its access slots, the scrubber's place (R87, R179, R189, R206, R420). -/
def Core.cleared (k : Core) : Core :=
  { job := k.job, inReset := k.inReset, clearing := k.clearing, puPend := k.puPend, edges := k.lanesOff, used := k.used, quantum := k.quantum,
    bankCyc := k.bankCyc, bankUse := k.bankUse, shareCnt := k.shareCnt, scrub := k.scrub, scrubAt := k.scrubAt }

/-- A stream after its context is saved: STOPPED becomes IDLE, any other state stays (R189). -/
def Stream.saved (s : Stream) : Stream := { st := if s.st = .stopped then .idle else s.st }

/-- Leave of a core's planes returned, and its requests withdrawn (R413). -/
def Dev.dropLeave (d : Dev) (c : Nat) : Dev :=
  { d with grants := d.grants.filter (fun g => g.core != c), leaveQ := d.leaveQ.filter (fun r => r.core != c) }

/-- Registers that belong to the context: program windows and column scale banks (R121, R195). -/
def ctxRegs (c : Nat) : List Nat :=
  [0x110, 0x114, 0x118, 0x120, 0x124, 0x128].map (aStrm c)
    ++ (List.range 2).flatMap (fun p => (List.range 4).flatMap (fun b => (List.range 64).map (fun j => bankReg c p b j)))

/-- The column scale banks at their reset values. -/
def Dev.clearBanks (d : Dev) (c : Nat) : Dev :=
  (ctxRegs c).foldl (fun d a => if a < aPln c 0x800 ∨ aPln c 0x1000 ≤ a then d else d.setReg a (resetVal a)) d

/-! ## Save -/

/-- A RUNNING or HALTED stream stops for a save (R189). -/
def Stream.saveStop (s : Stream) : Stream := if s.st = .running ∨ s.st = .halted then { s with st := .stopped, wait := none } else s

/-- A core's streams stop for the SAVE asked for. -/
def Core.saveStop (k : Core) : Core :=
  match k.ctx with
  | some x => if x.save ∧ !x.stopped then { k with ctx := some { x with stopped := true, xst := k.x.st, ast := k.a.st },
                                                    x := k.x.saveStop, a := k.a.saveStop } else k
  | none => k

/-- Has a core a SAVE asked for? -/
def Core.saving (k : Core) : Bool := (k.ctx.map (fun x => x.save)).getD false

/-- CTX_SAVE (R191, R192): both streams stop once every member of the core's chain has a SAVE request; CCTL_CTX_STAT shows
STOPPING. Ignored while CTX_BUSY. -/
def Dev.ctxSave (d : Dev) (c : Nat) (cmem : Bool) : Dev :=
  let k := d.core c
  if k.ctx.isSome ∨ k.inReset then d
  else
    let d1 := (d.setCore c { k with ctx := some { save := true, cmem := cmem, start := d.cycle } }).setReg (aCctl c 0x114) 1
    if (d1.chainOf c).all (fun m => (d1.core m).saving) then (d1.chainOf c).foldl (fun d m => d.onCore m Core.saveStop) d1 else d1

/-- Is a core ready to be saved: stopped, no decision, every injected group added, no held boundary, nothing on the chain, every
read and every drained record in its queue (R191, R192)? -/
def Core.saveReady (k : Core) (cyc : Nat) : Bool :=
  k.saving && k.stopping && k.dec.isNone && k.flight.all (fun o => o.grps.isEmpty) && [0, 1].all (fun p => (k.edge p).held.isNone)
    && k.chainIn.isEmpty && (k.queues ++ k.rbuf).all (fun p => p.2.all (fun e => decide (e.due ≤ cyc)))

/-- Are the cores that a context command concerns ready for the transfer: the members of a chain are saved, and restored,
together (R192, R195)? -/
def Dev.ctxGo (d : Dev) (c : Nat) : Bool :=
  (d.chainOf c).all (fun m => match (d.core m).ctx with
    | some x => !x.ready && (if x.save then (d.core m).saveReady d.cycle else !(d.core c).saving)
    | none => false)

/-- The transfer of a context begins: a SAVE shows SAVING (R197). -/
def Dev.ctxBegin (d : Dev) (m : Nat) : Dev :=
  let d1 := d.onCore m (fun k => { k.settleOwe with ctx := k.ctx.map (fun x => { x with ready := true }) })
  if (d.core m).saving then d1.setF (aCctl m 0x114) 2 0 2 else d1

/-- One block of core memory that a context command copies, as a REMOTE access (R193, R207, R208). -/
def Dev.ctxBlock (d : Dev) (c : Nat) : Dev :=
  match (d.core c).ctx with
  | none => d
  | some x =>
    if !x.ready ∨ !x.cmem ∨ 65536 ≤ x.moved then d
    else match d.cmemWait c 2 1 (64 * x.moved) with
      | some w => d.cmemHeld c 2 w
      | none => (d.cmemGrant c 2 1 (64 * x.moved)).onCore c (fun k => { k with ctx := some { x with moved := x.moved + 1 } })

/-- What a context command does in a cycle (R191–R195): it begins its transfer, or copies up to 128 bytes of core memory. -/
def Dev.ctxTick (d : Dev) (c : Nat) : Dev :=
  if (d.core c).ctx.isNone then d
  else if d.ctxGo c then (d.chainOf c).foldl Dev.ctxBegin d
  else (d.ctxBlock c).ctxBlock c

/-- A context command whose transfer is done (R193, R195). -/
def CtxCmd.over (x : CtxCmd) : Bool := x.ready && (!x.cmem || decide (65536 ≤ x.moved))

/-- Number of a stream state (R198). -/
def StreamState.code : StreamState → Nat
  | .idle => 0 | .running => 1 | .halted => 2 | .faulted => 3 | .deadlocked => 4 | .stopped => 5

/-- The stream state of a number. -/
def StreamState.ofCode (n : Nat) : StreamState :=
  [StreamState.idle, .running, .halted, .faulted, .deadlocked, .stopped].getD n .idle

/-- The image header, bytes 0–63 (R193); STAT holds the states when the save was requested. -/
def Dev.imageHeader (d : Dev) (c : Nat) (x : CtxCmd) : List Byte :=
  let k := d.core c
  bytesLE 4 1 ++ bytesLE 4 1605632 ++ bytesLE 4 (d.reg (aPln c 0x100)).toNat ++ bytesLE 1 (d.fld (aPln c 0x108) 1 0)
    ++ bytesLE 1 (k.job.getD 0) ++ bytesLE 2 c ++ bytesLE 4 k.x.pc ++ bytesLE 4 k.a.pc
    ++ bytesLE 4 (x.xst.code * 256 + x.ast.code) ++ bytesLE 4 k.flags ++ bytesLE 4 (b2n x.cmem) ++ List.replicate 28 0

/-- Bytes that the spec leaves open (R193): free values. -/
def Dev.freeBytes (d : Dev) (n : Nat) : Dev × List Byte := (d.useFree, (List.range n).map (Config.freeByte d.free))

/-- Vector registers, column banks and table as the image holds them (R193). -/
def Dev.imageRegs (d : Dev) (c : Nat) : List Byte :=
  let k := d.core c
  (List.range 32).flatMap (fun r => (List.range 64).flatMap (fun j => bytesLE 4 ((k.vread r d.cycle).lane j).toNat))
    ++ (List.range 2).flatMap (fun p => (List.range 4).flatMap (fun b => (List.range 64).flatMap (fun j => bytesLE 4 (d.reg (bankReg c p b j)).toNat)))
    ++ padTo 6144 0 k.table

/-- Queue contents as the image holds them (R193). -/
def Core.imageQueues (k : Core) : List Byte :=
  (List.range 6).flatMap (fun q => padTo (64 * qCap q) 0 ((k.queue q).flatMap (fun e => padTo 64 0 e.data)))


/-- The groups of an operation's next blocks from a load queue, as entries and the tag of their group (R125, R151). -/
def Dev.tagRuns (d : Dev) (c q : Nat) (o : Op) : List (Nat × Nat) :=
  if (mAq o.w == q) || (mBsrc o.w == 0 && mBq o.w == q) then
    (List.range (min 512 (mGroups o.w - o.inj))).map (fun i =>
      (((d.blockNeeds c { o with inj := o.inj + i }).filter (fun p => p.1 == q)).foldl (fun n p => n + p.2) 0, (mTag o.w + o.inj + i) % 64))
  else []

/-- The group tags of the entries of a queue: those of issued operations' a- and b-blocks, 0 for every other (R125, R176). -/
def Dev.queueTags (d : Dev) (c q : Nat) : List Nat :=
  let l := ((d.core c).ops.flatMap (d.tagRuns c q)).flatMap (fun p => List.replicate (min p.1 512) p.2)
  (padTo ((d.core c).queue q).length 0 l).take ((d.core c).queue q).length

/-- Poison bit and tag of every queue entry, a byte each: TAG [5:0], poison [6] (R193). -/
def Dev.imageMarks (d : Dev) (c : Nat) : List Byte :=
  padTo 4096 0 ((List.range 6).flatMap (fun q => padTo (qCap q) 0 (((d.core c).queue q).zip (if q < 4 then d.queueTags c q else
    List.replicate ((d.core c).queue q).length 0) |>.map (fun p => BitVec.ofNat 8 (p.2 + 64 * b2n p.1.poison)))))

/-- Transposing buffer and edge look-ahead (R193): the spans held, then the entries that the edges hold. -/
def Core.imageEdges (k : Core) : List Byte :=
  (padTo 86016 0 (k.ops.flatMap (fun o => entryBytes o.span ++ o.stage.flatMap (fun p => entryBytes p.2)))).take 86016

/-- Elements of a slot as the image holds them, logical row by row. -/
def Slot.image (s : Slot) (rows : Nat) (f : Elem → List Byte) : List Byte :=
  (List.range rows).flatMap (fun r => (List.range 64).flatMap (fun j => f (s.elem r j)))

/-- The entry copy of a slot that an operation in flight holds, if any (R82). -/
def Core.entryOf (k : Core) (key : Nat) : Slot := ((k.flight.filterMap (fun o => Tbl.look o.entry key)).head?).getD {}

/-- Head and tail of an element; its state and poison (R193). -/
def Elem.imageWords (e : Elem) : List Byte := bytesLE 4 e.head.toNat ++ bytesLE 4 e.tail.toNat
def Elem.imageByte (e : Elem) : List Byte := [BitVec.ofNat 8 ((match e.st with | .finite => 0 | .sat => 1 | .nf => 2) + 4 * b2n e.poison)]

/-- Slots, or entry copies, of both planes, F then B (R193). -/
def imagePlanes (slot : Nat → Slot) (f : Elem → List Byte) : List Byte :=
  (List.range 8).flatMap (fun n => (slot n).image 48 f) ++ (List.range 8).flatMap (fun n => (slot (8 + n)).image 96 f)

/-- The image written from its base up (R193): the header and image number, then the areas in their places; what the
spec leaves opaque and the model does not lay out is left open. DESIGN CHOICE (log entry 137). -/
def Dev.writeImage (d : Dev) (c base : Nat) (hdr : List Byte) (id : Nat) : Dev :=
  let k := d.core c
  let job := k.agent
  let regs := d.imageRegs c
  let marks := d.imageMarks c
  let put (d : Dev) (off : Nat) (l : List Byte) : Dev := d.devWriteN (dieOf c) job (base + off) l false
  let open_ (d : Dev) (off n : Nat) : Dev := let (d1, l) := d.freeBytes n; put d1 off l
  let d1 := open_ (put (put d 0 hdr) 64 (bytesLE 8 id)) 72 4024
  let d2 := put (put d1 0x1000 regs) 0x5000 marks
  let d3 := put (put d2 0x6000 k.imageQueues) 0x2E000 k.imageEdges
  let d4 := put (put d3 0x43000 (List.replicate 4096 0)) 0x44000 (imagePlanes k.slot Elem.imageWords)
  let d5 := put (put d4 0xD4000 (imagePlanes k.entryOf Elem.imageWords)) 0x164000 (imagePlanes k.slot Elem.imageByte)
  let d6 := put d5 0x176000 (imagePlanes k.entryOf Elem.imageByte)
  k.tableBad.foldl (fun d i => (d.devWrite (dieOf c) job (base + 0x3800 + 64 * i) (padTo 64 0 ((k.table.drop (64 * i)).take 64)) true).1) d6

/-- Core memory copied block by block, with poison (R193). -/
def Dev.copyOut (d : Dev) (c base : Nat) : Dev :=
  (List.range 65536).foldl (fun (d : Dev) i =>
    let (d1, data, p) := d.cmemRead c (64 * i)
    (d1.devWrite (dieOf c) (d.core c).agent (base + 64 * i) data p).1) d

/-- Has an address a target for a context transfer (R210)? -/
def hasTarget (pa : Nat) : Bool := decide (pa < hbmEnd) || (cmemOf pa).isSome

/-- The saved state of a core. -/
def Dev.imageOf (d : Dev) (c : Nat) : Image :=
  { core := { (d.core c) with ctx := none }, regs := (ctxRegs c).map (fun a => (a - corePages - 0x4000 * c, d.reg a)), phys := c }

/-- The image is complete, the streams are IDLE and the context is cleared. -/
def Dev.saveEnd (d : Dev) (c : Nat) : Dev :=
  match (d.core c).ctx with
  | none => d
  | some x =>
    if !x.save ∨ !x.over then d
    else
      let base := d.addr48 (aCctl c 0x118) (aCctl c 0x11C) 12
      let cb := d.addr48 (aCctl c 0x120) (aCctl c 0x124) 12
      let d1 : Dev := { d with images := d.images.put d.imageNo (d.imageOf c), imageNo := d.imageNo + 1 }
      let d2 := d1.writeImage c base (d.imageHeader c x) d.imageNo
      let d3 := if x.cmem then d2.copyOut c cb else d2
      let ok := hasTarget base && (!x.cmem || hasTarget cb)
      (((d3.onCore c (fun k => { k.cleared with x := k.x.saved, a := k.a.saved })).clearBanks c).dropLeave c).setReg (aCctl c 0x114)
        (BitVec.ofNat 32 (if ok then 3 else 0x900))

/-- CTX_SAVE_DONE (R193). -/
def Dev.ctxSaveDone (d : Dev) (c : Nat) : Dev := d.saveEnd c

/-! ## Restore -/

/-- What a RESTORE finds in the image's first 4 KiB: 0 accepted, 0x03 or 0x09 refused (R194). -/
def Dev.restoreCheck (d : Dev) (c base : Nat) : Nat :=
  let k := d.core c
  let h := d.peek base 64
  let w (o n : Nat) : Nat := ofBytesLE ((h.drop o).take n)
  if k.x.st ≠ .idle ∨ k.a.st ≠ .idle then 0x03
  else if d.peekPoisonN base 4096 ∨ !hasTarget base then 0x09
  else if w 0 4 = 1 ∧ w 8 4 = (d.reg (aPln c 0x100)).toNat ∧ w 12 1 = d.fld (aPln c 0x108) 1 0 ∧ k.job = some (w 13 1 % 64) then 0
  else 0x03

/-- CTX_RESTORE (R194): accepted, or refused with RESULT. -/
def Dev.ctxRestore (d : Dev) (c : Nat) (cmem : Bool) : Dev :=
  let k := d.core c
  if k.ctx.isSome ∨ k.inReset then d
  else
    let base := d.addr48 (aCctl c 0x118) (aCctl c 0x11C) 12
    let r := d.restoreCheck c base
    if r = 0 then
      (d.setCore c { k with ctx := some { save := false, cmem := cmem, start := d.cycle, image := ofBytesLE (d.peek (base + 64) 8) } }).setReg
        (aCctl c 0x114) 4
    else
      let d1 := d.setF (aCctl c 0x114) 15 8 r
      if r = 0x03 then d1.raise (aCctl c 0) 3 else d1

/-- An address of the saving core's window moved to the target's (R195). -/
def rebase (src dst a : Nat) : Nat :=
  if cmemBase src ≤ a ∧ a < cmemBase src + 0x400000 then a - cmemBase src + cmemBase dst else a

/-- A generator rebased. -/
def AddrGen.rebase (f : Nat → Nat) (g : AddrGen) : AddrGen := { g with base := f g.base, cur := f g.cur }

/-- A bounding range rebased with its low end. -/
def rebaseHi (f : Nat → Nat) (lo hi : Nat) : Nat := f lo + (hi - lo)

/-- Every address of a saved context rebased (R195, R221). -/
def Core.rebase (f : Nat → Nat) (k : Core) : Core :=
  { k with
    ags := k.ags.map (fun p => (p.1, p.2.rebase f))
    trans := k.trans.map (fun t => { t with ag := t.ag.rebase f, lo := f t.lo, hi := rebaseHi f t.lo t.hi })
    logs := k.logs.map (fun e => { e with ag := e.ag.rebase f, lo := f e.lo, hi := rebaseHi f e.lo e.hi })
    queues := k.queues.map (fun p => (p.1, p.2.map (fun e => { e with addr := f e.addr })))
    rbuf := k.rbuf.map (fun p => (p.1, p.2.map (fun e => { e with addr := f e.addr })))
    replay := k.replay.map (fun p => (p.1, p.2.map (fun e => (e.1, f e.2))))
    flight := k.flight.map (fun o => { o with took := o.took.map (fun p => (p.1, p.2.map f)) })
    issue := k.issue.map (fun o => { o with took := o.took.map (fun p => (p.1, p.2.map f)) }) }

/-- The pc, state and flags that the header records (R193). -/
def Core.fromHeader (k : Core) (h : List Byte) : Core :=
  let w (o n : Nat) : Nat := ofBytesLE ((h.drop o).take n)
  { k with x := { k.x with pc := w 16 4, st := StreamState.ofCode (w 24 4 / 256 % 8) }
           a := { k.a with pc := w 20 4, st := StreamState.ofCode (w 24 4 % 8) }
           flags := w 28 4 % 65536 }

/-- Elements of a slot whose place in the image, or whose state byte's place, is poisoned (R194). -/
def Slot.imagePoison (s : Slot) (bad : Nat → Bool) (at_ : Nat → Nat → Nat) (w b : Nat) : Slot :=
  { s with rows := s.rows.zipIdx.map (fun r => r.1.zipIdx.map (fun e =>
    if bad (w + 8 * at_ r.2 e.2) || bad (b + at_ r.2 e.2) then { e.1 with poison := true } else e.1)) }

/-- Number of an element among those of both planes' slots, F then B. -/
def imageElem (key r j : Nat) : Nat := if key < 8 then (key * 48 + r) * 64 + j else 24576 + ((key - 8) * 96 + r) * 64 + j

/-- First entry of a queue among those of all queues. -/
def imageEntry (q : Nat) : Nat := if q < 4 then 512 * q else 2048 + 256 * (q - 4)

/-- Poisoned blocks of the image poison the state they load: queue entries, vector lanes, slot elements, bank entries,
table blocks, what the edges hold, entry copies (R194). -/
def Core.imagePoison (k : Core) (bad : Nat → Bool) : Core :=
  let vr := (List.range 32).foldl (fun (t : Tbl VReg) r =>
    let b := (List.range 64).filter (fun j => bad (0x1000 + 256 * r + 4 * j))
    if b.isEmpty then t else t.put r { (t.getD r {}) with bad := b.foldl setIns (t.getD r {}).bad }) k.vregs
  let banks := ((List.range 512).filter (fun n => bad (0x3000 + 4 * n))).foldl setIns k.bankBad
  let tab := ((List.range 65).filter (fun i => bad (0x3800 + 64 * i))).foldl setIns k.tableBad
  let qs := k.queues.map (fun p => (p.1, p.2.zipIdx.map (fun e =>
    if bad (0x6000 + 64 * (imageEntry p.1 + e.2)) || bad (0x5000 + imageEntry p.1 + e.2) then { e.1 with poison := true } else e.1)))
  let slots := k.slots.map (fun p => (p.1, p.2.imagePoison bad (imageElem p.1) 0x44000 0x164000))
  let edgeBad := (List.range 1344).any (fun i => bad (0x2E000 + 64 * i))
  let hold (l : List QEntry) : List QEntry := if edgeBad then l.map (fun e => { e with poison := true }) else l
  let op (o : Op) : Op := { o with span := hold o.span, stage := o.stage.map (fun p => (p.1, hold p.2)),
                                   entry := o.entry.map (fun p => (p.1, p.2.imagePoison bad (imageElem p.1) 0xD4000 0x176000)) }
  { k with vregs := vr, bankBad := banks, tableBad := tab, queues := qs, slots := slots, flight := k.flight.map op, issue := k.issue.map op }

/-- Core memory copied back (R193). -/
def Dev.copyIn (d : Dev) (c base : Nat) : Dev :=
  (List.range 65536).foldl (fun (d : Dev) i =>
    let (d1, g) := d.devRead (dieOf c) (d.core c).agent (base + 64 * i)
    d1.cmemWrite c (64 * i) g.data (g.poison || g.refused)) d

/-- CTX_RESTORE_DONE (R195). -/
def Dev.ctxRestoreDone (d : Dev) (c : Nat) : Dev :=
  let k := d.core c
  match k.ctx with
  | none => d
  | some x =>
    if x.save ∨ !x.over then d
    else
      let base := d.addr48 (aCctl c 0x118) (aCctl c 0x11C) 12
      let h := d.peek base 64
      let src := ofBytesLE ((h.drop 14).take 2)
      let im : Image := (Tbl.look d.images x.image).getD { core := {}, regs := [], phys := src }
      let f := rebase src c
      let win (a v : Nat) (lo : Nat) : Dev → Dev := fun d =>
        (d.setReg (aStrm c lo) (BitVec.ofNat 32 (f a))).setReg (aStrm c v) (BitVec.ofNat 32 (f a / 2 ^ 32))
      let d1 := im.regs.foldl (fun (d : Dev) p => d.setReg (corePages + 0x4000 * c + p.1) p.2) d
      let d2 := win (d1.addr48 (aStrm c 0x110) (aStrm c 0x114) 6) 0x114 0x110 d1
      let d3 := win (d2.addr48 (aStrm c 0x120) (aStrm c 0x124) 6) 0x124 0x120 d2
      let n := ((im.core.rebase f).imagePoison (fun o => d.peekPoison (base + o))).fromHeader h
      let n1 : Core := { n with job := k.job, inReset := k.inReset, clearing := k.clearing, puPend := k.puPend, used := k.used,
                                quantum := k.quantum, scrub := k.scrub, scrubAt := k.scrubAt, ctx := none, edges := k.lanesOff,
                                unacked := [], replayAt := d.cycle,
                                trans := n.trans.filter (fun t => !(t.kind == .store && t.done == t.entries)) }
      let d4 := (d3.setCore c n1).setReg (aCctl c 0x114) 0
      if x.cmem then d4.copyIn c (d.addr48 (aCctl c 0x120) (aCctl c 0x124) 12) else d4

end Sys2Proof.Machine
end

