-- ==== Sys2Proof/Machine/Slice.lean ====
section
/-! DEFINITION. The shared cache and the stacks as commands see them (08 R234–R248): one access at a home slice,
atomics, the HBM scrubber, the stacks' calibration windows. -/

namespace Sys2Proof.Machine

/-- One access to an HBM line at its home slice (R236): a 64-byte read, a write of up to 64 bytes within one block,
or the slice's own eviction of the line (R237); a read of the posted-reduction window (R243). -/
inductive SliceOp where
  | read (pa : Nat)
  /-- A read that misses and whose command to the stack meets a parity error, as does its retry (R225). -/
  | parity (pa : Nat)
  | write (pa : Nat) (data : List Byte) (poison : Bool)
  | evict (pa : Nat)
  | readRed (pa : Nat)
  deriving DecidableEq, Repr

/-- Address of a slice operation. -/
def SliceOp.pa : SliceOp → Nat
  | .read a | .parity a | .write a _ _ | .evict a | .readRed a => a

/-- Errors that the slice's SRAM shows in the access (R237): corrected codewords, and an uncorrectable one, which
poisons its block. -/
def Dev.sramErrs (d : Dev) (pa ce : Nat) (ue : Bool) : Dev :=
  let k := d.hbmKey pa
  let s := keySlice k
  let l := d.line k
  let d1 := if ce = 0 then d else (d.inc (aScc s 0x11C) ce).raise (aScc s 0) 0
  if ue && l.has k then
    let d2 := ((d1.inc (aScc s 0x120)).owlEv 1 1).raise (aScc s 0) 1
    { d2 with cache := d2.cache.put (k / 128) (if k / 64 % 2 = 0 then { l with p0 := true } else { l with p1 := true }) }
  else d1

/-- SLICE_ACCESS (R235–R237, R243, R353). A miss whose stack is in a window waits (R245). -/
def Dev.sliceAccess (d : Dev) (die : Nat) (op : SliceOp) (ce : Nat) (ue : Bool) : Dev :=
  match op with
  | .readRed a => (d.badOp (d.refuser die a)).respond (List.replicate 64 0) true
  | .evict a =>
    if a < hbmEnd ∧ d.stackBusy (d.hbmKey a) = false ∧ d.trxFull (d.hbmKey a) = false then (d.sramErrs a ce ue).evict (d.hbmKey a / 128) else d
  | .parity a =>
    if hbmEnd ≤ a ∨ (d.line (d.hbmKey a)).has (d.hbmKey a) ∨ d.hbmWaits a true then d
    else (((d.crossDie die a).inc (aHmc (keyStack (d.hbmKey a)) 0x108)).raise (aHmc (keyStack (d.hbmKey a)) 0) 1).respond (List.replicate 64 0) true
  | .read a =>
    if hbmEnd ≤ a then d.respond (List.replicate 64 0) true
    else if d.hbmWaits a true then d.sliceHeld a
    else
      let (d1, data, p, nak) := ((d.crossDie die a).sramErrs a ce ue).hbmRead (a / 64 * 64)
      d1.respond data (p || nak)
  | .write a data p =>
    if hbmEnd ≤ a then d
    else if d.hbmWaits a (decide (data.length < 64)) ∧ d.sqrCopy.contains (a / 0x10000) = false then d.sliceHeld a
    else ((d.crossDie die a).sramErrs a ce ue).hbmWrite a data p

/-- Does a slice take an atomic: a code and an operand that R241 allows, in HBM (R243)? -/
def atomicOk (code pa : Nat) : Bool :=
  match atomicWidth code with
  | none => false
  | some w => decide (pa < hbmEnd) && decide (pa % w = 0)

/-- An atomic at its home slice: old value and poison (R241, R243). -/
def Dev.atomicAt (d : Dev) (die code pa a cmp : Nat) : Dev × Nat × Bool :=
  if atomicOk code pa = false then (d.badOp (d.refuser die pa), 0, true)
  else
    let w := (atomicWidth code).getD 8
    let (d1, bs, p, nak) := (d.crossDie die pa).hbmRead (pa / 64 * 64)
    let old := ofBytesLE ((bs.drop (pa % 64)).take w)
    if p ∨ nak then (d1, old, true)
    else
      let v := bytesLE w (atomicNew code (8 * w) old (a % 2 ^ (8 * w)) (cmp % 2 ^ (8 * w)))
      let d2 := d1.hbmSet (pa / 64 * 64) (bs.take (pa % 64) ++ v ++ bs.drop (pa % 64 + w)) false
      (d2.inc (aScc (keySlice (d.hbmKey pa)) 0x10C), old, false)

/-- What an atomic answers: old value and poison; `none` while it waits at its home slice, or its page's first-touch copy holds it
(R239, R245, R353). -/
def Dev.atomic (d : Dev) (die code pa a cmp : Nat) : Dev × Option (Nat × Bool) :=
  if atomicOk code pa && d.hbmWaits pa true && !d.sqrCopy.contains (pa / 0x10000) then (d.sliceHeld pa, none)
  else
    let (d0, held) := if atomicOk code pa then d.sqrHold { addr := pa, data := [], poison := false } else (d, false)
    if held then (d0, none)
    else
      let (d1, r) := d0.atomicAt die code pa a cmp
      (d1, some r)

/-- ATOMIC (R241, R243): the old value is the response. -/
def Dev.atomicCmd (d : Dev) (die code pa a cmp : Nat) : Dev :=
  let (d1, r) := d.atomic die code pa a cmp
  match r with
  | some (old, p) => d1.respond (bytesLE ((atomicWidth code).getD 8) old) p
  | none => d1

/-! ## HBM scrubber (R234) -/

/-- HBM address whose storage address is k, under the pair's mode (R227). -/
def Dev.hbmAddrOf (d : Dev) (k : Nat) : Nat :=
  let g := keyPc k
  let sl := k / 0x100000 % 1536
  let q := k % 0x100000 / 256
  if d.isLocal (sl / 2) then
    2 ^ 30 * (2 * (sl / 2) + g / 512) + (sl % 2 * 2 ^ 21 + q * 512 + (g % 512 ^^^ q % 512)) * 256 + k % 256
  else sl * 2 ^ 30 + (1024 * q + (g ^^^ q % 1024)) * 256 + k % 256

/-- A line that its home slice holds takes the corrected block, and is written back on eviction (R234). -/
def Dev.scrubLine (d : Dev) (k : Nat) : Dev :=
  let l := d.line k
  if l.has k then { d with cache := d.cache.put (k / 128) { l with dirty := true } }
  else
    let (_, data, p) := d.hbmBlock k (d.hbmAddrOf k)
    d.putBlock k k data p true

/-- Scrub of one stored block: counted; corrected symbols are written back, or corrected in its home slice when that holds the
line. -/
def Dev.scrubBlock (d : Dev) (k : Nat) : Dev :=
  let rs := d.blockReads k
  let d1 := d.hmcCount k (d.hbmAddrOf k) rs
  let fixed := rs.filterMap (fun r => match r.2 with
    | .corrected _ _ => some r.1
    | _ => none)
  if fixed.isEmpty then d1
  else if (Tbl.look d.cache (k / 128)).isSome then d1.scrubLine k
  else { d1 with errs := d1.errs.store [] (k / 64) ((d1.errs.getD (k / 64) []).filter (fun e => !fixed.contains e.cw)) }

/-- Lines of a pseudo-channel: 1.5 GiB of 128 bytes. -/
def pcLines : Nat := 12582912

/-- HBM_SCRUB_STEP (R234): one line of each pseudo-channel of the stack. -/
def Dev.hbmScrub (d : Dev) (i : Nat) : Dev :=
  let s := d.stack i
  if d.bit (aHmc i 0x134) 31 = false ∨ s.window ∨ s.held ∨ s.selfRefresh ∨ d.cycle < s.scrubAt + 64 * d.fld (aHmc i 0x134) 15 0 then d
  else
    let d1 := (List.range 64).foldl (fun (d : Dev) pc =>
      let k := 0x60000000 * (64 * i + pc) + 128 * s.scrub
      (d.scrubBlock k).scrubBlock (k + 64)) d
    d1.setStack i { s with scrub := (s.scrub + 1) % pcLines, scrubAt := d.cycle }

/-! ## Calibration windows (R245, R246) -/

/-- PERIOD of the stacks' windows. -/
def Dev.hmcPeriod (d : Dev) : Nat := d.fld (aMap 0x100) 23 0

/-- First tick from t on that is a phase modulo a period. -/
def nextDue (t phase period : Nat) : Nat :=
  let p := max 1 period
  let x := t - t % p + phase % p
  if t ≤ x then x else x + p

/-- HMC_STAT and the calendar registers as the stack stands. -/
def Dev.showStack (d : Dev) (i : Nat) : Dev :=
  let s := d.stack i
  (((d.setReg (aHmc i 0x100) (BitVec.ofNat 32 (b2n s.held * 2 ^ 31 + b2n s.trained * 2 ^ 30 + b2n s.selfRefresh * 2 ^ 29 + b2n s.window * 2 ^ 28))).setReg
    (aHmc i 0x124) (BitVec.ofNat 32 s.due)).setReg (aHmc i 0x12C) (BitVec.ofNat 32 s.defers)).setReg (aHmc i 0x138) (BitVec.ofNat 32 (s.temp % 256))

/-- A stack changed, with its registers. -/
def Dev.putStack (d : Dev) (i : Nat) (s : Stack) : Dev := (d.setStack i s).showStack i

/-- A stack that fails training is held down (R226). -/
def Dev.holdStack (d : Dev) (i : Nat) : Dev :=
  (d.putStack i { (d.stack i) with held := true, trained := false }).raise (aHmc i 0) 5

/-- A trained stack's due tick at its place in the calendar, keeping what deferrals have added (R245, R246). -/
def Dev.hmcAlign (d : Dev) (i : Nat) : Dev :=
  let s := d.stack i
  let t := nextDue d.tick (d.fld (aHmc i 0x120) 23 0) d.hmcPeriod
  if s.trained then d.putStack i { s with due := t + (s.due - s.orig), orig := t } else d

/-- HMC_CAL_WINDOW (R226, R233, R245, R246): retraining passes or fails, the temperature and the on-die corrections
are read. -/
def Dev.hmcWindow (d : Dev) (i : Nat) (pass : Bool) (temp odecc : Nat) : Dev :=
  let s := d.stack i
  if !s.trained ∨ s.held ∨ s.window ∨ d.tick < s.due then d
  else
    let next := s.orig + max 1 d.hmcPeriod
    if s.selfRefresh then d.putStack i { s with defers := 0, due := next, orig := next }
    else
      let d1 := d.putStack i { s with window := true, defers := 0, due := next, orig := next, temp := temp }
      let d2 := if s.defers = 4 then (d1.inc (aHmc i 0x130)).raise (aHmc i 0) 4 else d1
      let d3 := { (d2.inc (aHmc i 0x11C) odecc) with lineCnt := d2.lineCnt.delWhere (fun k => k / 4096 == i) }
      if pass then d3 else d3.holdStack i

/-- HMC_CAL_WINDOW_END (R245). -/
def Dev.hmcWindowEnd (d : Dev) (i : Nat) : Dev := d.putStack i { (d.stack i) with window := false }

/-- HMC_CAL_DEFER (R246): at most four times, and before the due tick. -/
def Dev.hmcDefer (d : Dev) (i : Nat) : Dev :=
  let s := d.stack i
  if s.trained ∧ s.defers < 4 ∧ d.tick < s.due ∧ s.window = false then
    d.putStack i { s with defers := s.defers + 1, due := s.due + d.fld (aMap 0x104) 15 0 }
  else d

end Sys2Proof.Machine
end

