-- ==== Sys2Proof/Machine/Dma.lean ====
section
/-! DEFINITION. DMA rings (09 R249–R270): fetching, checking, moving, writing back and notifying; interrupts, states,
errors. -/

namespace Sys2Proof.Machine

/-! ## Fields of a descriptor (R255) -/

/-- The descriptor as one number. -/
def DmaDesc.w (e : DmaDesc) : Nat := ofBytesLE e.bytes

def dmaSrc (w : Nat) : Nat := bitsN w 63 0
def dmaDst (w : Nat) : Nat := bitsN w 127 64
def dmaSrcLen (w : Nat) : Nat := bitsN w 151 128 + 1
def dmaSrcStride (w : Nat) : Int := signedN (bitsN w 191 152) 40
def dmaDstLen (w : Nat) : Nat := bitsN w 215 192 + 1
def dmaDstStride (w : Nat) : Int := signedN (bitsN w 255 216) 40
def dmaSrcLines (w : Nat) : Nat := bitsN w 271 256 + 1
def dmaDstLines (w : Nat) : Nat := bitsN w 287 272 + 1
def dmaSrcHost (w : Nat) : Bool := bitN w 288
def dmaDstHost (w : Nat) : Bool := bitN w 289
def dmaCrcEn (w : Nat) : Bool := bitN w 291
def dmaIrq (w : Nat) : Bool := bitN w 292
def dmaNotify (w : Nat) : Bool := bitN w 293
def dmaFence (w : Nat) : Bool := bitN w 294
def dmaCrcCont (w : Nat) : Bool := bitN w 295
def dmaNcore (w : Nat) : Nat := bitsN w 328 320
def dmaNflags (w : Nat) : Nat := bitsN w 351 336
def dmaOwn (w : Nat) : Bool := bitN w 447

/-- Bytes of the stream. -/
def dmaTotal (w : Nat) : Nat := dmaSrcLen w * dmaSrcLines w

/-- Address of byte m of the source stream, and bytes left in its line (R256). -/
def dmaSrcAt (w m : Nat) : Nat × Nat :=
  (((dmaSrc w : Int) + ((m / dmaSrcLen w : Nat) : Int) * dmaSrcStride w + ((m % dmaSrcLen w : Nat) : Int)).toNat, dmaSrcLen w - m % dmaSrcLen w)

/-- Address of byte m of the stream at its destination, and bytes left in its line. -/
def dmaDstAt (w m : Nat) : Nat × Nat :=
  (((dmaDst w : Int) + ((m / dmaDstLen w : Nat) : Int) * dmaDstStride w + ((m % dmaDstLen w : Nat) : Int)).toNat, dmaDstLen w - m % dmaDstLen w)

/-! ## Checks (R257) -/

/-- Does a device line lie wholly in HBM, in one core's window, or (destination) in one op's span of the reduction
window? -/
def dmaLineOk (dst : Bool) (a : Int) (len : Nat) : Bool :=
  if a < 0 then false
  else
    let lo := a.toNat
    let hi := lo + len - 1
    decide (hi < hbmEnd)
      || (match cmemOf lo, cmemOf hi with
          | some (c, _), some (e, _) => c == e
          | _, _ => false)
      || (dst && (match redOf lo, redOf hi with
          | some (o, x), some (p, y) => o == p && decide (x ≤ y) && decide (y < hbmEnd)
          | _, _ => false))

/-- Alignment unit of a device side that starts at an address: 4 in core memory, the element size in the reduction
window (R204, R257). -/
def dmaUnit (a : Nat) : Nat :=
  if (cmemOf a).isSome then 4 else match redOf a with
    | some (op, _) => redWidth op
    | none => 1

/-- Is one side of a descriptor refused? -/
def dmaSideBad (dst host : Bool) (a len lines : Nat) (stride : Int) : Bool :=
  !host && (decide (2 ^ 48 ≤ a)
    || (List.range lines).any (fun n => !dmaLineOk dst ((a : Int) + (n : Int) * stride) len)
    || decide (a % dmaUnit a ≠ 0) || decide (len % dmaUnit a ≠ 0) || decide (stride % (dmaUnit a : Int) ≠ 0))

/-- Is a descriptor refused before it moves (R257)? -/
def dmaRefused (w : Nat) : Bool :=
  [(511, 480), (445, 440), (427, 425), (335, 329), (319, 296), (290, 290)].any (fun p => decide (bitsN w p.1 p.2 ≠ 0))
    || decide (dmaTotal w ≠ dmaDstLen w * dmaDstLines w)
    || (decide (1 < dmaDstLines w) && decide ((dmaDstStride w).natAbs < dmaDstLen w))
    || dmaSideBad false (dmaSrcHost w) (dmaSrc w) (dmaSrcLen w) (dmaSrcLines w) (dmaSrcStride w)
    || dmaSideBad true (dmaDstHost w) (dmaDst w) (dmaDstLen w) (dmaDstLines w) (dmaDstStride w)
    || (dmaNotify w && decide (311 < dmaNcore w))
    || (dmaCrcCont w && !dmaCrcEn w)

/-! ## Interrupts (R264, R265) -/

/-- The channel's message, when it may be sent: pending becomes 0. -/
def Dev.dmaSend (d : Dev) (ch : Nat) : Dev :=
  let k := d.chan ch
  if d.bit (aDmaC ch 0x1C) 31 ∧ 0 < k.pend then
    (d.setChan ch { k with pend := 0 }).sendMsix (d.fld (aDmaC ch 0x1C) 10 0)
  else d

/-- Have the completions pending reached COAL_CNT (R265)? -/
def Dev.dmaIrqDue (d : Dev) (ch : Nat) : Bool := decide (max 1 (d.fld (aDmaC ch 0x20) 7 0) ≤ (d.chan ch).pend)

/-- The channel sends as soon as a condition of R265 holds. -/
def Dev.dmaIrqCheck (d : Dev) (ch : Nat) : Dev := if d.dmaIrqDue ch then d.dmaSend ch else d

/-- A completion counted (R259, R264). -/
def Dev.dmaCount (d : Dev) (ch : Nat) : Dev :=
  let k := d.chan ch
  d.setChan ch { k with pend := min (k.pend + 1) 0x1FFFF, oldest := if k.pend = 0 then d.tick else k.oldest }

/-- The channel stops fetching in a state, and flushes (R264). -/
def Dev.dmaStopIn (d : Dev) (ch : Nat) (st : ChanState) : Dev := (d.setChan ch { (d.chan ch) with st := st }).dmaSend ch

/-- The channel enters ERROR with a code and a ring index (R266); in ERROR the first condition's stay, of those of one cycle the
one of the lowest code (R15). -/
def Dev.dmaError (d : Dev) (ch code idx : Nat) : Dev :=
  let k := d.chan ch
  let keep : Bool := k.st == .error && !(k.errCyc == d.cycle && decide (code < k.errCode))
  (if keep then d else d.setChan ch { k with errCode := code, errIdx := idx, errCyc := d.cycle }).dmaStopIn ch .error

/-! ## Ring -/

/-- Entries, address of entry i, HEAD, job, die and page of a channel. -/
def Dev.dmaSize (d : Dev) (ch : Nat) : Nat := d.fld (aDmaC ch 0x10) 15 0 + 1
def Dev.dmaRingAt (d : Dev) (ch i : Nat) : Nat := (d.reg (aDmaC ch 8)).toNat / 64 * 64 + (d.reg (aDmaC ch 0xC)).toNat * 2 ^ 32 + 64 * i
def Dev.dmaHead (d : Dev) (ch : Nat) : Nat := d.fld (aDmaC ch 0x14) 15 0
def Dev.dmaJob (d : Dev) (ch : Nat) : Nat := d.fld (aDmaC ch 0) 29 24
def Dev.dmaRingHost (d : Dev) (ch : Nat) : Bool := d.bit (aDmaC ch 0) 2
def dmaPage (ch : Nat) : Nat := aDma (ch / 8) 0

/-- A read of host memory by the device: data, poison, and whether the link serves it (R365, R366). -/
def Dev.hostGet (d : Dev) (a n : Nat) : Dev × List Byte × Bool × Bool :=
  if d.cb.up && d.cb.bme then
    let (l, p) := d.hostRead a n
    ((if p then d.poisonRx else d), l, p, true)
  else (d, [], false, false)

/-- A doorbell (R252). -/
def Dev.dmaDoorbell (d : Dev) (ch : Nat) : Dev :=
  let k := d.chan ch
  if k.st = .wait then d.setChan ch { k with st := .active } else d.setChan ch { k with dbPend := true }

/-- POLL expires in WAIT (R252). -/
def Dev.dmaPoll (d : Dev) (ch : Nat) : Dev :=
  let k := d.chan ch
  let n := d.fld (aDmaC ch 0) 23 16
  if k.st = .wait ∧ n ≠ 0 ∧ k.polled + 1024 * n ≤ d.cycle then d.setChan ch { k with st := .active } else d

/-- May the channel fetch: ACTIVE, enabled, fewer than four descriptors in progress, within HEAD and the three after
it, and not round the ring (R252, R254)? -/
def Dev.dmaMayFetch (d : Dev) (ch : Nat) : Bool :=
  let k := d.chan ch
  k.st == .active && d.bit (aDmaC ch 0) 0 && decide (k.descs.length < 4) && decide (k.descs.length < d.dmaSize ch)

/-- A descriptor that the channel starts: refused, or to be moved (R252, R257, R263). -/
def dmaStart (idx : Nat) (bytes : List Byte) : DmaDesc :=
  let w := ofBytesLE bytes
  if dmaRefused w then { idx := idx, bytes := bytes, status := 0x0B, reason := 3, ended := true } else { idx := idx, bytes := bytes }

/-- What the ring read at the fetch point gives: bytes, poison, failure. A held stack and an address with no target return poison
(R226, R227); a read that a router sinks fails (R30). -/
def Dev.dmaRingRead (d : Dev) (ch : Nat) : Dev × List Byte × Bool × Bool :=
  let a := d.dmaRingAt ch (d.chan ch).fetch
  if d.dmaRingHost ch then
    let (d1, l, p, ok) := d.hostGet a 64
    (d1, l, p, !ok)
  else
    let (d1, g) := (d.remoteGrant (some (d.dmaJob ch)) a 1).devRead (ch / 32) (some (d.dmaJob ch)) a
    (d1, g.data, g.poison, g.refused && (cmemOf a).isSome)

/-- Must the channel's next ring read wait at its target (R208, R245)? -/
def Dev.dmaRingWait (d : Dev) (ch : Nat) : Option Nat :=
  if d.dmaRingHost ch then none else d.devWait (some (d.dmaJob ch)) (d.dmaRingAt ch (d.chan ch).fetch) 1 true

/-- DMA_DESC_FETCH; `fail`: the host answers the ring read with UR, CA or not at all (R252, R266, R366). -/
def Dev.dmaFetch (d : Dev) (ch : Nat) (fail : Bool) : Dev :=
  if !d.dmaMayFetch ch then d
  else if let some w := d.dmaRingWait ch then d.devHeld (d.dmaRingAt ch (d.chan ch).fetch) w
  else
    let i := (d.chan ch).fetch
    let (d1, bytes, p, bad) := d.dmaRingRead ch
    if bad || (fail && d.dmaRingHost ch) then (d1.raise (dmaPage ch) 1).dmaError ch 0x0B i
    else if p then (d1.raise (dmaPage ch) 1).dmaError ch 0x01 i
    else
      let k := d1.chan ch
      if dmaOwn (ofBytesLE bytes) then
        d1.setChan ch { k with descs := k.descs ++ [dmaStart i bytes], fetch := if i + 1 = d.dmaSize ch then 0 else i + 1 }
      else if k.dbPend then (d1.setChan ch { k with dbPend := false }).dmaSend ch
      else (d1.setChan ch { k with polled := d.cycle }).dmaStopIn ch .wait

/-! ## Moving data (R254, R256, R260–R263) -/

/-- CRC-32C register after one byte (R263). -/
def crcByte (r : Nat) (b : Byte) : Nat :=
  (List.range 8).foldl (fun r _ => if r % 2 = 1 then (r / 2) ^^^ 0x82F63B78 else r / 2) (r ^^^ b.toNat)

/-- CRC-32C register after bytes. -/
def crcBytes (r : Nat) (l : List Byte) : Nat := l.foldl crcByte r

/-- Does an address lie in a source line of the descriptor, on the destination's side (R257)? -/
def dmaOverlap (w a : Nat) : Bool :=
  (dmaSrcHost w == dmaDstHost w) && (List.range (dmaSrcLines w)).any (fun n =>
    let lo := (dmaSrcAt w (n * dmaSrcLen w)).1
    decide (lo ≤ a) && decide (a < lo + dmaSrcLen w))

/-- Bytes of the next piece: up to the next 64-byte boundary of either side and the end of either line. -/
def dmaPiece (w m : Nat) : Nat :=
  let (s, sl) := dmaSrcAt w m
  let (t, tl) := dmaDstAt w m
  min (min (64 - s % 64) (64 - t % 64)) (min sl tl)

/-- Descriptor j in progress replaced. -/
def Dev.setDesc (d : Dev) (ch j : Nat) (e : DmaDesc) : Dev := d.setChan ch { (d.chan ch) with descs := setAt (d.chan ch).descs j e }

/-- Is descriptor j of the channel free to move: not ended, its fence passed, no earlier CRC that it continues, no
write unacknowledged (R254, R260, R263)? -/
def DmaChan.mayMove (k : DmaChan) (j : Nat) : Option DmaDesc :=
  match k.descs[j]? with
  | none => none
  | some e =>
    let w := e.w
    if e.ended ∨ e.dropped ∨ e.unacked.isSome ∨ dmaTotal w ≤ e.moved ∨ k.st = .disabled then none
    else if 0 < j ∧ (dmaFence w ∨ (dmaCrcCont w ∧ (k.descs.take j).any (fun x => dmaCrcEn x.w))) then none
    else some e

/-- Where a piece must wait: its source or its destination, and what for (R208, R245). -/
def Dev.dmaWaits (d : Dev) (job : Nat) (w m : Nat) : Option (Nat × Nat) :=
  let full : Bool := decide (dmaPiece w m = 64)
  let src := if dmaSrcHost w then none else d.devWait (some job) (dmaSrcAt w m).1 1 true
  let dst := if dmaDstHost w then none else d.devWait (some job) (dmaDstAt w m).1 (if full then 1 else 2) false
  match src with
  | some x => some ((dmaSrcAt w m).1, x)
  | none => dst.map (fun x => ((dmaDstAt w m).1, x))

/-- A write that a first-touch copy holds belongs to a descriptor: its completion waits for it (R258, R353). -/
def Dev.ownHeld (d e : Dev) (ch idx : Nat) : Dev :=
  let n := d.sqrHeld.length
  { e with sqrHeld := e.sqrHeld.take n ++ (e.sqrHeld.drop n).map (fun h => { h with own := some (ch, idx) }) }

/-- Is a write of a descriptor held? -/
def Dev.ownsHeld (d : Dev) (ch idx : Nat) : Bool := d.sqrHeld.any (fun h => h.own == some (ch, idx))

/-- What became of a piece's write. -/
inductive DmaPut where
  | done | unacked | refused
  deriving DecidableEq, Repr

/-- The piece written at its destination, the bytes that lie in the source left for the end (R257, R258). -/
def Dev.dmaWrite (d : Dev) (ch w a : Nat) (l : List Byte) (p : Bool) : Dev × DmaPut :=
  let job := d.dmaJob ch
  if dmaDstHost w then
    if d.cb.up && d.cb.bme then
      (l.zipIdx.foldl (fun (d : Dev) x => if dmaOverlap w (a + x.2) then d else d.hostWrite (a + x.2) [x.1]) d, .done)
    else (d, .refused)
  else
    let d1 := d.remoteGrant (some job) a (if l.length = 64 then 1 else 2)
    match redOf a with
    | some (op, x) => (d1.postRed (ch / 32) op x l p, .done)
    | none =>
      let sunk := (cmemOf a).isSome && !(match cmemOf a with
        | some (c, _) => d.delivers c (some job)
        | none => true)
      if (List.range l.length).any (fun i => dmaOverlap w (a + i)) then
        (l.zipIdx.foldl (fun (d : Dev) x => if dmaOverlap w (a + x.2) then d else (d.devWrite (ch / 32) (some job) (a + x.2) [x.1] p).1) d1,
         if sunk then .unacked else .done)
      else ((d1.devWrite (ch / 32) (some job) a l p).1, if sunk then .unacked else .done)

/-- A descriptor ends with STATUS 0x0B and a reason (R260). -/
def DmaDesc.fail (e : DmaDesc) (reason : Nat) : DmaDesc := { e with status := 0x0B, reason := reason, ended := true, unacked := none }

/-- The bytes of the destination that lie in the source are not defined (R257): free values, in blocks that poisoned data has
touched poisoned ones (R261). -/
def Dev.dmaFreeOverlap (d : Dev) (ch : Nat) (e : DmaDesc) : Dev :=
  let w := e.w
  let as := ((List.range (dmaTotal w)).map (fun m => (dmaDstAt w m).1)).filter (dmaOverlap w)
  if as.isEmpty then d
  else (as.zipIdx.foldl (fun (d : Dev) p =>
    if dmaDstHost w then d.hostWrite p.1 [Config.freeByte d.free p.2]
    else (d.devWrite (ch / 32) (some (d.dmaJob ch)) p.1 [Config.freeByte d.free p.2] (e.bads.contains (p.1 / 64))).1) d).useFree

/-- Descriptor j moves no further byte: it is recorded, and its bytes that lie in the source are left open. -/
def Dev.dmaEnd (d : Dev) (ch j : Nat) (e : DmaDesc) : Dev := (d.setDesc ch j e).dmaFreeOverlap ch e

/-! ## Write-back (R258, R259) -/

/-- The CRC register of a descriptor of a channel: before its first byte, the value that CRC_CONT starts it from (R263). -/
def DmaDesc.crcReg (e : DmaDesc) (k : DmaChan) : Nat := if e.moved = 0 ∧ dmaCrcCont e.w then k.crc ^^^ 0xFFFFFFFF else e.crc

/-- The CRC that a descriptor stores (R263). -/
def DmaDesc.crcOut (e : DmaDesc) (k : DmaChan) : Nat := (e.crcReg k ^^^ 0xFFFFFFFF) % 2 ^ 32

/-- Bytes 48–63 of a descriptor at its write-back (R255, R258). Without CRC_EN the CRC field has no stated value. -/
def Dev.dmaTrailer (d : Dev) (ch : Nat) (e : DmaDesc) : List Byte :=
  let crc := if dmaCrcEn e.w then e.crcOut (d.chan ch) else (Config.freeValue d.free).toNat % 2 ^ 32
  bytesLE 16 (e.moved + e.reason % 16 * 2 ^ 44 + e.status % 256 * 2 ^ 48 + b2n e.poison * 2 ^ 62 + 2 ^ 64 * crc)

/-- Flags set on the core to notify (R29, R259). -/
def Dev.dmaNotifyCore (d : Dev) (ch w : Nat) : Dev :=
  if dmaNotify w ∧ dmaNcore w ≤ 311 then
    (if d.delivers (dmaNcore w) (some (d.dmaJob ch)) then d.setFlags (dmaNcore w) (dmaNflags w) else d.sink (dmaNcore w))
  else d

/-- The write-back of the channel's oldest descriptor: one 16-byte write, which sets OWN to 0 (R258). -/
def Dev.dmaWbWrite (d : Dev) (ch : Nat) (e : DmaDesc) : Dev :=
  let a := d.dmaRingAt ch e.idx + 48
  let t := d.dmaTrailer ch e
  let d0 := if dmaCrcEn e.w then d else d.useFree
  if d.dmaRingHost ch then (if d.cb.up && d.cb.bme then d0.hostWrite a t else d0)
  else d0.ownHeld ((d0.remoteGrant (some (d.dmaJob ch)) a 2).devWrite (ch / 32) (some (d.dmaJob ch)) a t false).1 ch e.idx

/-- The write-back is complete: the core is notified, HEAD advances, the completion is counted (R259, R260, R263). -/
def Dev.dmaRetire (d : Dev) (ch : Nat) (e : DmaDesc) : Dev :=
  let w := e.w
  let d2 := d.dmaNotifyCore ch w
  let head := if e.idx + 1 = d.dmaSize ch then 0 else e.idx + 1
  let k := d2.chan ch
  let d3 := (d2.setChan ch { k with descs := k.descs.drop 1, crc := if dmaCrcEn w then e.crcOut k else k.crc }).setF
    (aDmaC ch 0x14) 15 0 head
  let d4 := d3.incWrap (aDmaC ch 0x24)
  let d5 := if e.status = 0x0B then (d4.incWrap (aDmaC ch 0x28)).raise (dmaPage ch) 0 else d4
  let d6 := if dmaIrq w ∨ e.status ≠ 0 then d5.dmaCount ch else d5
  if e.status ≠ 0 then d6.dmaSend ch else d6

/-- After a write-back: a channel that no longer fetches and holds no descriptor is IDLE (R266). -/
def Dev.dmaSettle (d : Dev) (ch : Nat) : Dev :=
  let k := d.chan ch
  if (k.st = .active ∨ k.st = .wait) ∧ d.bit (aDmaC ch 0) 0 = false ∧ k.descs.isEmpty then d.dmaStopIn ch .idle else d.dmaIrqCheck ch

/-- What follows a complete write-back: a descriptor that poison stopped on its way to host memory has its job stopped (R262,
R345). -/
def Dev.dmaWbEnd (d : Dev) (ch : Nat) (e : DmaDesc) : Dev :=
  if e.status = 0x12 then ((d.dmaRetire ch e).dmaSend ch).jobStop (d.dmaJob ch) 0x12 0x1FF
  else (d.dmaRetire ch e).dmaSettle ch

/-- The oldest descriptor is written back, and retires at once unless a first-touch copy holds the write (R259, R353). -/
def Dev.dmaWb (d : Dev) (ch : Nat) (e : DmaDesc) : Dev :=
  let d1 := d.dmaWbWrite ch e
  if d1.ownsHeld ch e.idx then d1.setDesc ch 0 { e with wb := true } else d1.dmaWbEnd ch e

/-- Has a descriptor every write complete, or failed, and none held (R258)? -/
def Dev.dmaWbReady (d : Dev) (ch : Nat) (e : DmaDesc) : Bool :=
  !e.dropped && e.unacked.isNone && (e.ended || decide (dmaTotal e.w ≤ e.moved)) && !d.ownsHeld ch e.idx

/-- STATUS of a descriptor at its write-back. -/
def DmaDesc.final (e : DmaDesc) : DmaDesc := { e with status := if e.status = 0 ∧ e.poison then 0x01 else e.status }

/-- Must the write-back wait at its target (R204, R208, R245)? -/
def Dev.dmaWbWait (d : Dev) (ch : Nat) (e : DmaDesc) : Option Nat :=
  if d.dmaRingHost ch then none else d.devWait (some (d.dmaJob ch)) (d.dmaRingAt ch e.idx + 48) 2 false

/-- DMA_WRITEBACK; of a write-back already made, its completion. -/
def Dev.dmaWriteback (d : Dev) (ch : Nat) : Dev :=
  let k := d.chan ch
  match k.descs.head? with
  | none => d
  | some e =>
    if k.st = .disabled ∨ d.dmaWbReady ch e = false then d
    else if e.wb then d.dmaWbEnd ch e
    else match d.dmaWbWait ch e with
      | some w => d.devHeld (d.dmaRingAt ch e.idx + 48) w
      | none => d.dmaWb ch e.final

/-- Poisoned data due for host memory ends descriptor j (R262): it moves nothing more, later descriptors are not done (log
entry 119), the channel is in ERROR; the job stops once the descriptor is written back. -/
def Dev.dmaHostPoison (d : Dev) (ch j : Nat) (e : DmaDesc) : Dev :=
  let e1 := { e with status := 0x12, poison := true, ended := true }
  let k := d.chan ch
  let l := k.descs.take j ++ e1 :: (k.descs.drop (j + 1)).map (fun x => { x with dropped := true })
  let d1 := (((d.setChan ch { k with descs := l }).dmaFreeOverlap ch e1).raise (dmaPage ch) 3).dmaError ch 0x12 e.idx
  if j = 0 then d1.dmaWriteback ch else d1

/-- The source bytes of a piece: data, poison, failure (R260, R270). -/
def Dev.dmaRead (d : Dev) (ch w m n : Nat) : Dev × List Byte × Bool × Bool :=
  let a := (dmaSrcAt w m).1
  if d.bit (dmaPage ch + 0x18) 0 then (d.putB (dmaPage ch + 0x18) 0 false, [], false, true)
  else if dmaSrcHost w then
    let (d1, l, p, ok) := d.hostGet a n
    (d1, l, p, !ok)
  else
    let (d1, g) := (d.remoteGrant (some (d.dmaJob ch)) a 1).devRead (ch / 32) (some (d.dmaJob ch)) a
    (d1, (g.data.drop (a % 64)).take n, g.poison, false)

/-- The blocks of n bytes at an address, where they lie in the descriptor's source (R257). -/
def overlapBlocks (w a n : Nat) : List Nat := ((List.range n).filter (fun i => dmaOverlap w (a + i))).map (fun i => (a + i) / 64)

/-- The piece has been read: written with its poison, counted into BYTES and the CRC (R258, R261–R263). -/
def Dev.dmaPut (d : Dev) (ch j : Nat) (e : DmaDesc) (l : List Byte) (p : Bool) : Dev :=
  let w := e.w
  if dmaDstHost w && p then d.dmaHostPoison ch j e
  else
    let a := (dmaDstAt w e.moved).1
    let (d0, r) := d.dmaWrite ch w a l p
    let d1 := d.ownHeld d0 ch e.idx
    let e1 := { e with moved := e.moved + l.length, poison := e.poison || p, crc := if dmaCrcEn w then crcBytes (e.crcReg (d.chan ch)) l else e.crc,
                       bads := if p then e.bads ++ overlapBlocks w a l.length else e.bads }
    let d2 := if p then d1.raise (dmaPage ch) 2 else d1
    match r with
    | .done => (if e1.moved = dmaTotal w then d2.dmaEnd ch j e1 else d2.setDesc ch j e1)
    | .unacked => d2.setDesc ch j { e with unacked := some d.cycle, poison := e.poison || p }
    | .refused => d2.dmaEnd ch j (e.fail 2)

/-- DMA_DATA_MOVE: the next piece of descriptor j in progress. -/
def Dev.dmaMove (d : Dev) (ch j : Nat) : Dev :=
  match (d.chan ch).mayMove j with
  | none => d
  | some e =>
    let w := e.w
    match d.dmaWaits (d.dmaJob ch) w e.moved with
    | some x => d.devHeld x.1 x.2
    | none =>
      let (d1, l, p, bad) := d.dmaRead ch w e.moved (dmaPiece w e.moved)
      if bad then d1.dmaEnd ch j (e.fail 1) else d1.dmaPut ch j e l p

/-- DMA_XFER_FAIL: the host fails a read (reason 1) or the host interface refuses a write (reason 2) (R260, R366). -/
def Dev.dmaXferFail (d : Dev) (ch j : Nat) (write : Bool) : Dev :=
  match (d.chan ch).mayMove j with
  | none => d
  | some e =>
    if (if write then dmaDstHost e.w else dmaSrcHost e.w) then d.dmaEnd ch j (e.fail (if write then 2 else 1)) else d

/-- DMA_WRITE_TIMEOUT: 100 µs, 190,000 cycles at 1.9 GHz (R260). -/
def Dev.dmaTimeout (d : Dev) (ch j : Nat) : Dev :=
  match (d.chan ch).descs[j]? with
  | none => d
  | some e => match e.unacked with
    | some c => if c + 190000 ≤ d.cycle then d.dmaEnd ch j (e.fail 4) else d
    | none => d

/-- DMA_COAL_TIMEOUT (R265). -/
def Dev.dmaCoal (d : Dev) (ch : Nat) : Dev :=
  if (d.chan ch).oldest + d.fld (aDmaC ch 0x20) 31 16 ≤ d.tick then d.dmaSend ch else d

/-! ## EN and DISABLE (R266, R267) -/

/-- A write of EN (R266). -/
def Dev.dmaEn (d : Dev) (ch : Nat) (en : Bool) : Dev :=
  let d1 := d.putB (aDmaC ch 0) 0 en
  let k := d1.chan ch
  if en then (if k.st = .idle then d1.setChan ch { k with st := .active, fetch := d.dmaHead ch } else d1)
  else d1.dmaSettle ch

/-- A write of DISABLE (R266, R267). -/
def Dev.dmaDisableWrite (d : Dev) (ch : Nat) (dis : Bool) : Dev :=
  let d1 := d.putB (aDmaC ch 0) 1 dis
  let k := d1.chan ch
  if dis then (if k.st = .disabled then d1 else d1.dmaDisable ch)
  else if k.st = .disabled then d1.setChan ch { k with st := .idle } else d1

end Sys2Proof.Machine
end

