-- ==== Sys2Proof/Machine/Link.lean ====
section
/-! DEFINITION. Sloer ports: packet headers (10 R281), the link layer (R283, R285), training and widths (R284, R447),
the calibration calendar (R302–R304). -/

namespace Sys2Proof.Machine

/-! ## Headers (R281) -/

/-- Bits [239:0] of a header. -/
def Tx.body (t : Tx) : Nat :=
  let k := t.pkt
  b2n t.nak * 2 ^ 5 + t.crd % 1024 * 2 ^ 6 + t.crdClass % 8 * 2 ^ 16 + t.ack % 4096 * 2 ^ 19 + t.lseq % 4096 * 2 ^ 31
  + k.addr % 2 ^ 48 * 2 ^ 43 + k.off % 2 ^ 32 * 2 ^ 91 + k.tag % 65536 * 2 ^ 123 + k.msg % 65536 * 2 ^ 139
  + k.len % 8192 * 2 ^ 155 + k.coll % 16 * 2 ^ 168 + k.op % 32 * 2 ^ 172 + b2n k.poison * 2 ^ 177 + b2n k.last * 2 ^ 178
  + b2n k.via * 2 ^ 179 + k.dev % 8 * 2 ^ 180 + k.board % 4096 * 2 ^ 183 + k.dst % 65536 * 2 ^ 195
  + k.src % 65536 * 2 ^ 211 + k.job % 64 * 2 ^ 227 + k.cls % 8 * 2 ^ 233 + k.type % 16 * 2 ^ 236

/-- The header as it stands on the wire, with HCRC. -/
def Tx.header (t : Tx) : Nat := t.body + crc16 t.body 240 * 2 ^ 240

/-- The fields of a header. -/
def Tx.ofHeader (h : Nat) (data : List Byte) : Tx :=
  { pkt :=
      { type := bitsN h 239 236, cls := bitsN h 235 233, job := bitsN h 232 227, src := bitsN h 226 211, dst := bitsN h 210 195
        board := bitsN h 194 183, dev := bitsN h 182 180, via := bitN h 179, last := bitN h 178, poison := bitN h 177
        op := bitsN h 176 172, coll := bitsN h 171 168, len := bitsN h 167 155, msg := bitsN h 154 139, tag := bitsN h 138 123
        off := bitsN h 122 91, addr := bitsN h 90 43, data := data }
    lseq := bitsN h 42 31, ack := bitsN h 30 19, nak := bitN h 5, crdClass := bitsN h 18 16, crd := bitsN h 15 6 }

/-- Does HCRC match? -/
def hcrcOk (h : Nat) : Bool := crc16 (h % 2 ^ 240) 240 == bitsN h 255 240

/-- Flits of a packet (R281). -/
def Pkt.flits (k : Pkt) : Nat := (32 + k.data.length + 63) / 64

/-! ## Ports -/

/-- A port's state. -/
def Dev.port (d : Dev) (p : Nat) : Port := d.fab.ports.getD p {}

/-- The fabric changed by a function. -/
def Dev.onFab (d : Dev) (f : Fabric → Fabric) : Dev := { d with fab := f d.fab }

/-- SLP_STAT and the calendar registers of a port as it stands. -/
def Dev.showPort (d : Dev) (p : Nat) : Dev :=
  let s := d.port p
  ((d.setReg (aSlp p 0x100) (BitVec.ofNat 32 (b2n s.up * 2 ^ 31 + b2n s.held * 2 ^ 30 + b2n s.training * 2 ^ 29
    + b2n s.window * 2 ^ 28 + s.lanes % 16 * 2 ^ 16 + s.width))).setReg (aSlp p 0x134) (BitVec.ofNat 32 s.due)).setReg
    (aSlp p 0x13C) (BitVec.ofNat 32 (b2n s.master * 2 ^ 8 + s.defers))

/-- A port changed, with its registers. -/
def Dev.putPort (d : Dev) (p : Nat) (s : Port) : Dev :=
  (d.onFab (fun f => { f with ports := f.ports.store {} p s })).showPort p

/-- The port's byte of the floor plan, published (R22, R47). -/
def Dev.portByte (d : Dev) (p : Nat) : Dev :=
  let s := d.port p
  (d.setF (aFp (0x490 + p / 4 * 4)) (8 * (p % 4) + 7) (8 * (p % 4)) (b2n s.held * 8 + s.width)).publish

/-- Die of a port (R271). -/
def portDie (p : Nat) : Nat := p / 12

/-- Input buffer of each class in flits (R285). -/
def bufFlits : List Nat := [512, 512, 512, 256, 256, 32]

/-- Credit of a class that the port holds. -/
def Port.credit (s : Port) (cls : Nat) : Nat := s.credits.getD cls 0

/-- Flits in the replay buffer. -/
def Port.replayFlits (s : Port) : Nat := s.replay.foldl (fun n t => n + t.pkt.flits) 0

/-- May credits of a class go back now: REQ, FWD and COL credits wait for the end of a compute reset (R305)? -/
def Dev.crdOk (d : Dev) (cls : Nat) : Bool := !d.bit (aRst 0x10C) 0 || cls == 1 || cls == 5

/-- The class whose credits the next header returns: the lowest with credits owed. -/
def Dev.crdClass (d : Dev) (p : Nat) : Option Nat :=
  [0, 1, 2, 3, 4, 5].find? (fun c => decide (0 < (d.port p).owed.getD c 0) && d.crdOk c)

/-- The packet as it leaves the port now. -/
def Dev.txOf (d : Dev) (p : Nat) (k : Pkt) : Tx :=
  let s := d.port p
  match d.crdClass p with
  | some c => ⟨k, s.txSeq, s.rxSeq, s.nak, c, min 1023 (s.owed.getD c 0), false⟩
  | none => ⟨k, s.txSeq, s.rxSeq, s.nak, 0, 0, false⟩

/-- A packet on the wire: INJ_UE makes it uncorrectable (R306). -/
def Dev.onWire (d : Dev) (p : Nat) (t : Tx) : Tx := { t with ue := d.bit (aSlp p 0x18) 0 }

/-- A packet of n flits is sent: counted, and INJ_UE clears (R306). -/
def Dev.txCount (d : Dev) (p n : Nat) : Dev :=
  let d1 := d.incWrap (aSlp p 0x124) n
  if d1.bit (aSlp p 0x18) 0 then d1.putB (aSlp p 0x18) 0 false else d1

/-- A new packet leaves a port: numbered, kept for replay, credit taken, credits and a NAK returned in its header (R283,
R285). -/
def Dev.transmit (d : Dev) (p : Nat) (k : Pkt) : Dev :=
  let s := d.port p
  let t := d.txOf p k
  (d.putPort p { s with
    txSeq := (s.txSeq + 1) % 4096, replay := s.replay ++ [t], nak := false, lastTx := d.cycle, tx := some (d.onWire p t)
    credits := if k.cls < 6 then setAt s.credits k.cls (s.credit k.cls - k.flits) else s.credits
    owed := setAt s.owed t.crdClass (s.owed.getD t.crdClass 0 - t.crd) }).txCount p k.flits

/-- A packet of the replay buffer leaves again (R283). -/
def Dev.retransmit (d : Dev) (p : Nat) : Dev :=
  let s := d.port p
  match s.again with
  | [] => d
  | t :: l => (d.putPort p { s with again := l, lastTx := d.cycle, tx := some (d.onWire p t) }).txCount p t.pkt.flits

/-- A LINK packet (R281): OP 0 CREDIT, 1 CAL_START, 2 CAL_END, 3 CAL_DEFER, 4 CAL_NEXT. -/
def linkPkt (op off : Nat) : Pkt := { type := 15, cls := 7, op := op, off := off }

/-- Has the replay buffer room for a packet of one flit (R283)? -/
def Port.flitRoom (s : Port) : Bool := decide (s.replayFlits < 1024)

/-- A LINK packet is sent: behind a replay that is under way it is numbered and waits its turn (R283). -/
def Dev.linkSend (d : Dev) (p : Nat) (k : Pkt) : Dev :=
  let s := d.port p
  if s.again.isEmpty then d.transmit p k
  else
    let t := d.txOf p k
    d.putPort p { s with
      txSeq := (s.txSeq + 1) % 4096, replay := s.replay ++ [t], again := s.again ++ [t], nak := false
      owed := setAt s.owed t.crdClass (s.owed.getD t.crdClass 0 - t.crd) }

/-- What FEC found while a packet came in: codewords and symbols corrected, codewords not correctable that it
touches. -/
structure FecErrs where
  cw : Nat := 0
  sym : Nat := 0
  ue : Nat := 0
  deriving DecidableEq, Repr

/-- FEC counters of a port (R306, R347). -/
def Dev.fecCount (d : Dev) (p : Nat) (e : FecErrs) : Dev :=
  let d1 := (d.inc (aSlp p 0x10C) e.cw).inc (aSlp p 0x110) e.sym
  if e.ue = 0 then d1 else ((d1.inc (aSlp p 0x114) e.ue).owlEv 4 e.ue).raise (aSlp p 0) 0

/-- ACKSEQ covers packets of the replay buffer (R283). -/
def Port.acked (s : Port) (a : Nat) : Port :=
  match s.replay.findIdx? (fun t => t.lseq == a) with
  | some i =>
    let l := s.replay.drop (i + 1)
    { s with replay := l, again := s.again.filter (fun t => l.contains t), replays := 0 }
  | none => s

/-- A NAK is taken: the replay buffer is sent again (R283). -/
def Dev.naked (d : Dev) (p : Nat) : Dev :=
  let s := d.port p
  (((d.putPort p { s with again := s.replay, replays := s.replays + 1 }).inc (aSlp p 0x118)).owlEv 4 1).raise (aSlp p 0) 1

/-- The link layer takes a packet in (R283, R285); the Bool says that it is delivered. -/
def Dev.linkRx (d : Dev) (p h : Nat) (data : List Byte) (e : FecErrs) : Dev × Bool :=
  let s := d.port p
  if !s.up then (d, false)
  else
    let t := Tx.ofHeader h data
    let d1 := d.fecCount p e
    if 0 < e.ue ∨ hcrcOk h = false then
      let d2 := d1.putPort p { s with nak := true, drop := true }
      (if hcrcOk h then d2 else d2.raise (aSlp p 0) 5, false)
    else if t.lseq ≠ (s.rxSeq + 1) % 4096 then
      (d1.putPort p { s with nak := s.nak || !s.drop, drop := true }, false)
    else
      let c := t.crdClass
      let s1 := { s.acked t.ack with rxSeq := t.lseq, drop := false, nak := false }
      let s2 := { s1 with
        credits := if c < 6 then setAt s1.credits c (s1.credit c + t.crd) else s1.credits
        owed := if t.pkt.cls < 6 then setAt s1.owed t.pkt.cls (s1.owed.getD t.pkt.cls 0 + t.pkt.flits) else s1.owed }
      let d2 := (d1.putPort p s2).incWrap (aSlp p 0x128) t.pkt.flits
      (if t.nak then d2.naked p else d2, true)

/-- LINK_CREDIT_SEND (R283, R285): credits owed and no packet sent for 32 ns, 61 cycles at 1.9 GHz, or a NAK owed; it carries
both. -/
def Dev.creditSend (d : Dev) (p : Nat) : Dev :=
  let s := d.port p
  if s.up ∧ s.window = false ∧ s.flitRoom ∧ (s.nak ∨ ((d.crdClass p).isSome ∧ s.lastTx + 61 ≤ d.cycle)) then d.linkSend p (linkPkt 0 0) else d

/-! ## Training and widths (R284, R447) -/

/-- Width of a port with these lanes usable (R447). -/
def laneWidth (m : Nat) : Nat :=
  let n := ([0, 1, 2, 3].filter (fun i => bitN m i)).length
  if n = 4 then 4 else if 2 ≤ n then 2 else n

/-- MIN_WIDTH in lanes. -/
def Dev.minWidth (d : Dev) (p : Nat) : Nat := [1, 2, 4, 4].getD (d.fld (aSlp p 0x104) 1 0) 1

/-- Ticks of 200 ms at 1.5625 MHz (R284). -/
def trainLimit : Nat := 312500

/-- A port trains (R284, R404); a retrain of a port that carries traffic is counted. -/
def Dev.portTrain (d : Dev) (p : Nat) : Dev :=
  let s := d.port p
  let d1 := d.putPort p { s with up := false, training := true, held := false, trainT := d.tick, replays := 0, window := false }
  if s.up then (d1.inc (aSlp p 0x11C)).owlEv 5 1 else d1

/-- PORT_RETRAIN (R284): RETRY_LIM replays in a row. -/
def Dev.portRetrain (d : Dev) (p : Nat) : Dev :=
  if (d.port p).up ∧ max 1 (d.fld (aSlp p 0x104) 15 8) ≤ (d.port p).replays then d.portTrain p else d

/-- Is this end of the link the master of its calendar: the lower (board, device) (R302)? -/
def Dev.isMaster (d : Dev) (p : Nat) : Bool :=
  let a := d.reg (aFab 0x100)
  let b := d.reg (aSlp p 0x108)
  flag a 31 && flag b 31 && decide (Machine.fld a 30 16 < Machine.fld b 30 16)

/-- PERIOD of the ports' windows. -/
def Dev.slpPeriod (d : Dev) : Nat := d.fld (aFab 0x10C) 23 0

/-- The master sends the next due time (R302). -/
def Dev.calNext (d : Dev) (p : Nat) : Dev := d.linkSend p (linkPkt 4 ((d.port p).due - d.tick))

/-- A master's due tick at its place in the calendar, keeping what deferrals have added (R302, R304). -/
def Dev.calAlign (d : Dev) (p : Nat) : Dev :=
  let s := d.port p
  let t := nextDue d.tick (d.fld (aSlp p 0x130) 23 0) d.slpPeriod
  d.putPort p { s with due := t + (s.due - s.orig), orig := t }

/-- The calendar of a port starts at link up; a window deferred and not run stays deferred (R302, R304). -/
def Dev.calStart (d : Dev) (p : Nat) : Dev :=
  let s := d.port p
  let t := nextDue d.tick (d.fld (aSlp p 0x130) 23 0) d.slpPeriod
  if !d.isMaster p then d.putPort p { s with master := false, defers := 0 }
  else if s.master ∧ d.tick < s.due then d.calNext p
  else (d.putPort p { s with master := true, due := t, orig := t, defers := 0 }).calNext p

/-- A port that keeps nothing of an earlier link: full credit, numbers from 0. -/
def Port.fresh (s : Port) : Port :=
  { s with txSeq := 0, rxSeq := 4095, nak := false, drop := false, replay := [], again := [], replays := 0,
           credits := bufFlits, owed := List.replicate 6 0, starve := List.replicate 6 0 }

/-- A trained port comes up with these lanes: a retrain keeps the link's numbers and the replay buffer, which it sends
again (R284); otherwise the link starts anew. -/
def Dev.portUp (d : Dev) (p lanes : Nat) : Dev :=
  let s := d.port p
  let s0 := if s.credits.isEmpty then s.fresh else { s with again := s.replay, replays := 0, drop := false }
  (d.putPort p { s0 with up := true, held := false, training := false, lanes := lanes % 16, width := laneWidth lanes }).calStart p

/-! ## Windows (R302–R304) -/

/-- The master's window after this one. -/
def Dev.windowNext (d : Dev) (s : Port) : Port :=
  { s with defers := 0, orig := s.orig + max 1 d.slpPeriod, due := s.orig + max 1 d.slpPeriod }

/-- SLP_CAL_WINDOW (R303, R304): forced after four deferrals; a window due while the port retrains is replaced by the
retrain. -/
def Dev.slpWindow (d : Dev) (p : Nat) : Dev :=
  let s := d.port p
  if !s.master ∨ s.window ∨ d.tick < s.due then d
  else if s.training then d.putPort p (d.windowNext s)
  else if !s.up ∨ !s.flitRoom then d
  else
    let d1 := d.linkSend p (linkPkt 1 0)
    let d2 := d1.putPort p { (d.windowNext (d1.port p)) with window := true, count := s.count + 1 }
    if s.defers = 4 then (d2.inc (aSlp p 0x140)).raise (aSlp p 0) 3 else d2

/-- SLP_CAL_WINDOW_END (R302, R303). -/
def Dev.slpWindowEnd (d : Dev) (p : Nat) : Dev :=
  let s := d.port p
  if s.master ∧ s.window then ((d.putPort p { s with window := false }).linkSend p (linkPkt 2 0)).calNext p else d

/-- A deferral at the master (R304). -/
def Dev.slpDeferMaster (d : Dev) (p : Nat) : Dev :=
  let s := d.port p
  if s.master ∧ s.defers < 4 ∧ d.tick < s.due ∧ s.window = false then
    d.putPort p { s with defers := s.defers + 1, due := s.due + d.fld (aFab 0x110) 15 0 }
  else d

/-- SLP_CAL_DEFER (R304): on the other end, passed to the master. -/
def Dev.slpDefer (d : Dev) (p : Nat) : Dev :=
  let s := d.port p
  if s.master then d.slpDeferMaster p
  else if s.up ∧ s.window = false ∧ s.flitRoom then d.linkSend p (linkPkt 3 0) else d

/-- A LINK packet taken in: its effect when delivered (R285, R302–R304). -/
def Dev.linkEffect (d : Dev) (p : Nat) (k : Pkt) : Dev :=
  let s := d.port p
  match k.op with
  | 1 => if s.master then d else d.putPort p { s with window := true, count := s.count + 1 }
  | 2 => if s.master then d else d.putPort p { s with window := false }
  | 3 => d.slpDeferMaster p
  | 4 => if s.master then d else d.putPort p { s with due := d.tick + k.off }
  | _ => d

/-- A LINK packet of an OP arrives; another packet is not this event. -/
def Dev.linkReceive (d : Dev) (p op h : Nat) (e : FecErrs) : Dev :=
  let k := (Tx.ofHeader h []).pkt
  if k.type = 15 ∧ k.op = op then
    let (d1, ok) := d.linkRx p h [] e
    if ok then d1.linkEffect p k else d1
  else d

end Sys2Proof.Machine
end

