-- ==== Sys2Proof/Machine/Fabric.lean ====
section
/-! DEFINITION. The sending side of the Sloer fabric (10 R276–R280, R287–R288, R291–R294, R296–R298): routes, tags and
windows, completion records, send rings, packets leaving, losses. -/

namespace Sys2Proof.Machine

/-! ## Routes (R275, R278, R279) -/

/-- Own board and device. -/
def Dev.selfBoard (d : Dev) : Nat := d.fld (aFab 0x100) 30 19
def Dev.selfDev (d : Dev) : Nat := d.fld (aFab 0x100) 18 16

/-- Own rank in a job, and whether the fabric serves the job (R277). -/
def Dev.selfRank (d : Dev) (n : Nat) : Nat := d.fld (aFabJ n 0) 15 0
def Dev.fabOn (d : Dev) (n : Nat) : Bool := d.bit (aFabJ n 0) 31

/-- Ports of link group k (R275); group 0 has none. -/
def groupPorts (k : Nat) : List Nat := if k = 0 then [] else [3 * (k - 1), 3 * (k - 1) + 1, 3 * (k - 1) + 2]

/-- Link group toward a device of the own board. -/
def Dev.groupTo (d : Dev) (dev : Nat) : Nat := (dev + 8 - d.selfDev) % 8

/-- First hop of a packet, and its destination. -/
structure Route where
  board : Nat
  dev : Nat
  via : Bool
  ports : List Nat
  deriving DecidableEq, Repr

/-- Route to a rank of a job; `none`: unreachable (R278). An entry that names no port reaches nothing (log entry 61). -/
def Dev.route (d : Dev) (n r : Nat) : Option Route :=
  let w := d.reg (aFabRank (d.fld (aFabJ n 4) 29 16 + r))
  if d.fld (aFabJ n 4) 13 0 ≤ r ∨ 15360 ≤ d.fld (aFabJ n 4) 29 16 + r ∨ ¬ flag w 31 then none
  else
    let via := flag w 15
    let all := if flag w 11 then [21, 22, 23] else groupPorts (d.groupTo (if via then Machine.fld w 14 12 else Machine.fld w 18 16))
    let ps := (all.zipIdx.filter (fun x => flag w (8 + x.2))).map (fun x => x.1)
    if ps.isEmpty then none else some ⟨Machine.fld w 30 19, Machine.fld w 18 16, via, ps⟩

/-- Second hop at an intermediate: up ports toward the destination device (R279). -/
def Dev.secondHop (d : Dev) (board dev : Nat) : List Nat :=
  let l := if board = d.selfBoard then groupPorts (d.groupTo dev)
    else [21, 22, 23].filter (fun p => d.bit (aFab (0x134 + 4 * (p - 21))) 31
      && d.fld (aFab (0x134 + 4 * (p - 21))) 30 16 == board * 8 + dev)
  l.filter (fun p => (d.port p).up)

/-- A packet given to the outputs. -/
def Dev.pushOut (d : Dev) (o : OutPkt) : Dev := d.onFab (fun f => { f with out := f.out ++ [o] })

/-- A response given to the outputs; toward an unreachable rank none leaves (R278). -/
def Dev.reply (d : Dev) (k : Pkt) : Dev :=
  match d.route k.job k.dst with
  | none => d.raise (aFab 0) 4
  | some r => d.pushOut { pkt := { k with cls := 1, board := r.board, dev := r.dev, via := r.via }, ports := r.ports }

/-! ## Completion records (R296) -/

/-- A job's completion ring. -/
def Dev.cq (d : Dev) (n : Nat) : Cq := d.fab.cqs.getD n {}
def Dev.setCq (d : Dev) (n : Nat) (c : Cq) : Dev := d.onFab (fun f => { f with cqs := f.cqs.store {} n c })

/-- The pending records of a job's ring are reported. -/
def Dev.cqReport (d : Dev) (n : Nat) : Dev :=
  if d.bit (aFabJ n 0x10) 31 ∧ 0 < (d.cq n).pend then (d.setCq n { (d.cq n) with pend := 0 }).sendMsix (d.fld (aFabJ n 0x10) 26 16)
  else d

/-- What a completion record says. -/
structure CqRec where
  kind : Nat
  status : Nat
  peer : Nat
  coll : Nat
  msg : Nat
  total : Nat
  deriving DecidableEq, Repr

/-- The record's 128 bits. -/
def CqRec.word (r : CqRec) (phase : Bool) : Nat :=
  r.msg % 65536 + r.status % 256 * 2 ^ 16 + r.kind % 8 * 2 ^ 28 + b2n phase * 2 ^ 31 + r.peer % 65536 * 2 ^ 32
  + r.coll % 16 * 2 ^ 48 + r.total % 2 ^ 64 * 2 ^ 64

/-- A completion record of a job is written, or dropped when it would overtake CQ_HEAD (R296). -/
def Dev.cqWrite (d : Dev) (n : Nat) (r : CqRec) : Dev :=
  let c := d.cq n
  let size := 2 ^ d.fld (aFabJ n 0x10) 4 0
  if size ≤ c.idx - c.ahead then (d.inc (aFab 0x130)).raise (aFab 0) 3
  else
    let d1 := d.devWriteN 0 (some n) (d.addr48 (aFabJ n 8) (aFabJ n 0xC) 12 + 16 * (c.idx % size))
      (bytesLE 16 (r.word (c.idx / size % 2 == 0))) false
    let c1 := { c with idx := c.idx + 1, pend := c.pend + 1, oldest := if c.pend = 0 then d.tick else c.oldest }
    let d2 := d1.setCq n c1
    if max 1 (d.fld (aFabJ n 0x10) 15 8) ≤ c1.pend ∨ r.status ≠ 0 then d2.cqReport n else d2

/-- A ring's count is checked against COAL_CNT as FAB_JOB_n_CQ_CFG now gives it (R296). -/
def Dev.cqCheck (d : Dev) (n : Nat) : Dev := if max 1 (d.fld (aFabJ n 0x10) 15 8) ≤ (d.cq n).pend then d.cqReport n else d

/-- FAB_CQ_COAL_TIMEOUT (R296). -/
def Dev.cqTimeout (d : Dev) (n : Nat) : Dev :=
  let t := d.fld (aFab 0x144) 15 0
  if t ≠ 0 ∧ (d.cq n).oldest + t ≤ d.tick then d.cqReport n else d

/-- Records read, without wrapping, when software writes index h: the latest record with that index. -/
def aheadOf (idx h size : Nat) : Nat := idx - (idx % size + size - h % size) % size

/-- A write of FAB_JOB_n_CQ_HEAD (R296). -/
def Dev.cqHead (d : Dev) (n h : Nat) : Dev :=
  d.setCq n { (d.cq n) with ahead := aheadOf (d.cq n).idx h (2 ^ d.fld (aFabJ n 0x10) 4 0) }

/-! ## Sends and tags -/

/-- The completion record of a send, or for Squirrel's sends what Squirrel counts (R291, R352, R360). PEER of a GET or
AMO record is not stated: a free value. -/
def Dev.sendRecord (d : Dev) (s : Send) (status : Nat) : Dev :=
  if s.hw then
    let j := d.sqrJob s.job
    let d1 := if s.gen then d.setSqrJob s.job (if status = 0 then { j with unacked := j.unacked - 1 } else { j with stuck := true }) else d
    if status = 0 then d1 else d1.raise (aSqr 0) 3
  else
    let peer := if s.kind = 0 then s.dst else (Config.freeValue d.free).toNat
    (if s.kind = 0 then d else d.useFree).cqWrite s.job ⟨s.kind + 1, status, peer, s.coll, s.msg, s.total⟩

/-- A send's record kept or, when nothing of it is outstanding, dropped. -/
def Dev.putSend (d : Dev) (i : Nat) (s : Send) : Dev :=
  d.onFab (fun f => { f with sends := if s.left = 0 ∧ s.cut then f.sends.del i else f.sends.put i s })

/-- A request is answered: its tag is free, and the send's last answer completes it (R287, R295). -/
def Dev.tagDone (d : Dev) (tag : Nat) (t : Tag) : Dev :=
  let d1 := d.onFab (fun f => { f with tags := f.tags.del tag })
  match Tbl.look d.fab.sends t.send with
  | none => d1
  | some s =>
    let s1 := { s with left := s.left - 1 }
    let d2 := d1.putSend t.send s1
    if s1.left = 0 ∧ s1.cut ∧ s1.ended = false then d2.sendRecord s1 0 else d2

/-! ## Send rings (R291) -/

/-- A job's send ring. -/
def Dev.ring (d : Dev) (n : Nat) : SendRing := d.fab.rings.getD n {}

/-- FAB_SQ_n_STAT of a ring. -/
def SendRing.stat (r : SendRing) : Nat :=
  r.err % 256 * 256 + match r.st with
    | .idle => 0
    | .active => 1
    | .wait => 2
    | .error => 3

/-- A ring changed, with its register. -/
def Dev.putRing (d : Dev) (n : Nat) (r : SendRing) : Dev :=
  (d.onFab (fun f => { f with rings := f.rings.store {} n r })).setReg (aFabSq n 0x18) (BitVec.ofNat 32 r.stat)

/-- Address of the descriptor at HEAD. -/
def Dev.ringAt (d : Dev) (n : Nat) : Nat :=
  (d.reg (aFabSq n 0)).toNat / 64 * 64 + d.fld (aFabSq n 4) 15 0 * 2 ^ 32 + 64 * d.fld (aFabSq n 0xC) 15 0

/-- The interface reads the descriptor at HEAD (R291). A descriptor that cannot be read puts the ring into ERROR (log
entry 62). -/
def Dev.ringRead (d : Dev) (n : Nat) : Dev :=
  let (d1, g) := d.devRead 0 (some n) (d.ringAt n)
  let r : SendRing := { (d.ring n) with started := false, off := 0, send := none }
  if g.refused then d1.putRing n { r with st := .error, desc := none, err := 0x0B }
  else if g.poison then d1.putRing n { r with st := .error, desc := none, err := 0x01 }
  else
    let w := ofBytesLE g.data
    if bitN w 511 then d1.putRing n { r with st := .active, desc := some w }
    else d1.putRing n { r with st := .wait, desc := none, polled := d.cycle }

/-- The descriptor at HEAD is written back with OWN = 0, HEAD advances, and the ring goes on or becomes IDLE. -/
def Dev.ringDone (d : Dev) (n : Nat) : Dev :=
  let w := (d.ring n).desc.getD 0
  let d1 := (d.devWrite 0 (some n) (d.ringAt n + 63) [BitVec.ofNat 8 (bitsN w 510 504)] false).1
  let h := d.fld (aFabSq n 0xC) 15 0
  let d2 := d1.setF (aFabSq n 0xC) 15 0 (if h = d.fld (aFabSq n 8) 15 0 then 0 else h + 1)
  if d2.bit (aFabSq n 0x14) 31 then d2.ringRead n
  else d2.putRing n { (d2.ring n) with st := .idle, desc := none, started := false, off := 0, send := none }

/-- The ring whose descriptor has become send i and whose packets have all left is written back. -/
def Dev.ringSettle (d : Dev) (i n : Nat) : Dev :=
  let r := d.ring n
  if r.st = .active ∧ r.send = some i ∧ ((Tbl.look d.fab.sends i).map (fun s => s.cut)).getD true
      ∧ (d.fab.out.any (fun o => o.send == some i)) = false then d.ringDone n
  else d

/-- A send ends with LINK_DOWN (R297, R298): what has not left is dropped, its message slot is lost, its record is
written, and its ring goes on. -/
def Dev.sendLost (d : Dev) (i : Nat) : Dev :=
  match Tbl.look d.fab.sends i with
  | none => d
  | some s =>
    let n := (d.fab.tags.filter (fun p => p.2.send == i)).length
    let s1 := { s with left := n, cut := true, ended := true }
    let d1 := d.onFab (fun f => { f with out := f.out.filter (fun o => o.send != some i) })
    if s.ended then d1.putSend i s1
    else
      let d2 := if s.kind = 0 then d1.onFab (fun f => { f with lost := f.lost ++ [(s.job, s.dst, s.msg % 16)] }) else d1
      let d3 := ((d2.putSend i s1).sendRecord s 0x0C).raise (aFab 0) 5
      let d4 : Dev := { d3 with hwSends := d3.hwSends.filter (fun h => h.send != some i) }
      d4.ringSettle i s.job

/-- A tag whose request is lost: quarantined for 8 × FAB_TAG_TMO, its send ends (R297). -/
def Dev.tagLost (d : Dev) (tag : Nat) : Dev :=
  match Tbl.look d.fab.tags tag with
  | none => d
  | some t =>
    (d.onFab (fun f => { f with tags := f.tags.del tag, quar := f.quar.put tag (d.tick + 8 * d.fld (aFab 0x114) 15 0) })).sendLost t.send

/-- FAB_TAG_TIMEOUT (R297). -/
def Dev.tagTimeout (d : Dev) (tag : Nat) : Dev :=
  match Tbl.look d.fab.tags tag with
  | none => d
  | some t => if t.tick + d.fld (aFab 0x114) 15 0 ≤ d.tick then d.tagLost tag else d

/-- FAB_MSG_RELEASE (R298). -/
def Dev.msgRelease (d : Dev) (n slot rank : Nat) : Dev :=
  d.onFab (fun f => { f with lost := f.lost.filter (fun x => x != (n, rank, slot)) })

/-- FAB_SQ_DOORBELL (R291). -/
def Dev.ringDoorbell (d : Dev) (n : Nat) : Dev :=
  if (d.ring n).st = .wait ∧ d.bit (aFabSq n 0x14) 31 then d.ringRead n else d

/-- FAB_SQ_POLL_EXPIRE (R291). -/
def Dev.ringPoll (d : Dev) (n : Nat) : Dev :=
  let p := d.fld (aFabSq n 0x14) 23 16
  if p ≠ 0 ∧ (d.ring n).polled + 64 * p ≤ d.cycle then d.ringDoorbell n else d

/-- A write of EN = 1: an IDLE ring reads the descriptor at HEAD. -/
def Dev.ringEnable (d : Dev) (n : Nat) : Dev :=
  let d1 := d.putB (aFabSq n 0x14) 31 true
  if (d1.ring n).st = .idle then d1.ringRead n else d1

/-- FAB_SQ_DISABLE: a write of EN = 0 (R307): a started descriptor finishes first; also the way out of ERROR. -/
def Dev.ringDisable (d : Dev) (n : Nat) : Dev :=
  let d1 := d.putB (aFabSq n 0x14) 31 false
  let r := d1.ring n
  if r.st = .active ∧ r.started then d1
  else d1.putRing n { r with st := .idle, desc := none, off := 0, send := none, started := false, err := 0 }

/-! ## Send descriptors (R291) -/

def sdLocal (w : Nat) : Nat := bitsN w 63 0
def sdRemote (w : Nat) : Nat := bitsN w 127 64
def sdLen (w : Nat) : Nat := bitsN w 159 128
def sdRank (w : Nat) : Nat := bitsN w 175 160
def sdMsg (w : Nat) : Nat := bitsN w 191 176
def sdKind (w : Nat) : Nat := bitsN w 195 192
def sdMode (w : Nat) : Nat := bitsN w 199 196
def sdNotify (w : Nat) : Bool := bitN w 200
def sdOp (w : Nat) : Nat := bitsN w 205 201
def sdColl (w : Nat) : Nat := bitsN w 209 206
def sdOperand (w : Nat) : Nat := bitsN w 319 256
def sdCompare (w : Nat) : Nat := bitsN w 383 320

/-- Is the collective's tree entry usable by a job here (R299)? -/
def Dev.treeOk (d : Dev) (c n : Nat) : Bool :=
  d.bit (aFabColl c 0) 31 && d.bit (aFabColl c 0) 30 && d.fld (aFabColl c 4) 29 24 == n

/-- Does an address lie in core memory while it or the length is not a multiple of 4 (R282)? -/
def misaligned (w : Nat) : Bool :=
  ((cmemOf (sdLocal w)).isSome || (cmemOf (sdRemote w)).isSome)
    && decide (sdLocal w % 4 ≠ 0 ∨ sdRemote w % 4 ≠ 0 ∨ sdLen w % 4 ≠ 0)

/-- STATUS of a descriptor that is refused, 0 for one that is sent (R291). Reserved codes, and lengths and addresses
that R282 rules out, count as HAZARD (log entry 63). -/
def Dev.sendStatus (d : Dev) (n w : Nat) : Nat :=
  if bitsN w 510 384 ≠ 0 ∨ bitsN w 255 210 ≠ 0 ∨ 3 < sdKind w then 0x03
  else if sdKind w = 3 then
    if 2 < sdMode w ∨ 7 < sdOp w ∨ misaligned w ∨ d.treeOk (sdColl w) n = false then 0x03 else 0
  else if sdKind w = 2 ∧ atomicWidth (sdOp w) ≠ some (sdLen w) then 0x03
  else if sdKind w ≠ 2 ∧ misaligned w then 0x03
  else if (d.route n (sdRank w)).isNone then 0x0C
  else 0

/-- A refused descriptor gets its record, and the ring goes on (R278, R291). -/
def Dev.sendRefuse (d : Dev) (n w status : Nat) : Dev :=
  let s : Send := { job := n, kind := if 3 < sdKind w then 0 else sdKind w, dst := sdRank w, msg := sdMsg w, coll := sdColl w, total := sdLen w }
  let d1 := if status = 0x0C then d.raise (aFab 0) 4 else d
  (if s.kind = 3 then d1.useFree.cqWrite n ⟨4, status, (Config.freeValue d1.free).toNat, s.coll, 0, s.total⟩
   else d1.sendRecord s status).ringDone n

/-- Is a message slot toward a rank in use, or lost and not released (R294, R298)? -/
def Dev.slotBusy (d : Dev) (n rank slot : Nat) : Bool :=
  d.fab.sends.any (fun p => p.2.job == n && p.2.kind == 0 && p.2.dst == rank && p.2.msg % 16 == slot && !p.2.ended)
    || d.fab.lost.contains (n, rank, slot)

/-- Bytes of the next packet at an offset: at most 4,096, within a 4 KiB block of the remote address (R282). -/
def pieceLen (addr off len : Nat) : Nat := min (4096 - (addr + off) % 4096) (len - off)

/-- A packet's accesses to core memory, as core, block offset and REMOTE slots: two for part of a block (R204). -/
def Dev.fabAccesses (d : Dev) (n a len : Nat) (read : Bool) : List (Nat × Nat × Nat) :=
  (if a < hbmEnd then [] else cutBlocks a (List.replicate len 0)).filterMap (fun q => match cmemOf q.1 with
    | some (c, off) => if d.delivers c (some n) then some (c, off / 64 * 64, if read ∨ q.2.length = 64 then 1 else 2) else none
    | none => none)

/-- What makes a packet's accesses to core memory wait, and at which core (R200, R208). -/
def Dev.fabCmemWait (d : Dev) (l : List (Nat × Nat × Nat)) : Option (Nat × Nat) :=
  let n := (l.map (fun q => q.2.2)).sum
  l.findSome? (fun q => (d.cmemWait q.1 2 n q.2.1).map (fun w => (q.1, w)))

/-- A packet that waits at core memory is counted there (R200, R208). -/
def Dev.fabHeld (d : Dev) (l : List (Nat × Nat × Nat)) : Dev :=
  match d.fabCmemWait l with
  | some (c, w) => d.cmemHeld c 2 w
  | none => d

/-- Must a read of device memory wait for a stack's window, a first-touch copy, or a core's REMOTE share and banks (R208, R245)? -/
def Dev.fabReadWaits (d : Dev) (n a len : Nat) : Bool :=
  (List.range (blocksIn a len)).any (fun i => decide (a / 64 * 64 + 64 * i < hbmEnd) && d.hbmWaits (a / 64 * 64 + 64 * i) true)
    || (d.fabCmemWait (d.fabAccesses n a len true)).isSome

/-- Slots and banks of a packet's accesses to core memory. -/
def Dev.fabGrant (d : Dev) (l : List (Nat × Nat × Nat)) : Dev := l.foldl (fun d q => d.cmemGrant q.1 2 q.2.2 q.2.1) d

/-- The interface reads device memory for a packet. -/
def Dev.fabRead (d : Dev) (n a len : Nat) : Dev × Got :=
  (d.fabGrant (d.fabAccesses n a len true)).devReadN 0 (some n) a len

/-- A send of the ring's descriptor begins. -/
def Dev.sendBegin (d : Dev) (n w : Nat) : Dev :=
  let i := d.fab.sendNo
  let s : Send := { job := n, kind := sdKind w, dst := sdRank w, msg := sdMsg w, coll := sdColl w, total := sdLen w }
  (d.onFab (fun f => { f with sendNo := i + 1, sends := f.sends.put i s })).putRing n { (d.ring n) with started := true, send := some i }

/-- One more packet of send i is cut. -/
def Dev.sendCut (d : Dev) (i : Nat) (o : OutPkt) (all : Bool) : Dev :=
  match Tbl.look d.fab.sends i with
  | none => d
  | some s => (d.pushOut { o with send := some i }).putSend i { s with left := s.left + 1, cut := all }

/-- Poisoned data for a PUT or COL (R292): nothing more is sent, SEND_DONE with 0x12, ring ERROR, the job stops. -/
def Dev.sendPoisoned (d : Dev) (n w : Nat) : Dev :=
  let d1 := match (d.ring n).send with
    | some i => (match Tbl.look d.fab.sends i with
      | some s => d.putSend i { s with cut := true, ended := true }
      | none => d)
    | none => d
  let d2 := d1.cqWrite n ⟨1, 0x12, sdRank w, sdColl w, if sdKind w = 3 then 0 else sdMsg w, sdLen w⟩
  let d3 := d2.putRing n { (d2.ring n) with st := .error, err := 0x12, desc := none, started := false, send := none }
  (d3.raise (aFab 0) 2).jobStop n 0x12 0x1FF

/-- The descriptor that a ring serves now, when it has a KIND, or an unknown one. -/
def Dev.ringDesc (d : Dev) (n kind : Nat) : Option Nat :=
  let r := d.ring n
  if r.st = .active then r.desc.filter (fun w => sdKind w == kind || decide (3 < sdKind w)) else none

/-- A request of a job to a rank, before its type's own fields. -/
def Dev.reqPkt (d : Dev) (n rank : Nat) (r : Route) : Pkt :=
  { job := n, src := d.selfRank n, dst := rank, board := r.board, dev := r.dev, via := r.via }

/-- Bytes of a PUT or GET cut, at an offset of its descriptor; `true` when it is the last. -/
def Dev.cutPut (d : Dev) (n w i off : Nat) (r : Route) : Dev :=
  let len := pieceLen (sdRemote w) off (sdLen w)
  if d.fabReadWaits n (sdLocal w + off) len then d.fabHeld (d.fabAccesses n (sdLocal w + off) len true)
  else
    let (d1, g) := d.fabRead n (sdLocal w + off) len
    if g.poison then d1.sendPoisoned n w
    else
      let last : Bool := decide (sdLen w ≤ off + len)
      let k : Pkt := { (d.reqPkt n (sdRank w) r) with
        type := 0, last := last, op := b2n (sdNotify w) * 16, coll := sdColl w, len := len, msg := sdMsg w, off := off
        addr := (sdRemote w + off) % 2 ^ 48, data := g.data }
      (d1.sendCut i { pkt := k, ports := r.ports, bytes := len } last).putRing n { (d1.ring n) with off := off + len }

/-- The next packet of a GET. -/
def Dev.cutGet (d : Dev) (n w i off : Nat) (r : Route) : Dev :=
  let len := pieceLen (sdRemote w) off (sdLen w)
  let k : Pkt := { (d.reqPkt n (sdRank w) r) with type := 1, len := len, off := off, addr := (sdRemote w + off) % 2 ^ 48 }
  (d.sendCut i { pkt := k, ports := r.ports, bytes := len, land_ := sdLocal w + off } (decide (sdLen w ≤ off + len))).putRing n
    { (d.ring n) with off := off + len }

/-- The packet of an AMO: operand, then compare value (R282). -/
def Dev.cutAmo (d : Dev) (n w i : Nat) (r : Route) : Dev :=
  let k : Pkt := { (d.reqPkt n (sdRank w) r) with
    type := 4, op := sdOp w, len := 16, addr := sdRemote w % 2 ^ 48, data := bytesLE 8 (sdOperand w) ++ bytesLE 8 (sdCompare w) }
  d.sendCut i { pkt := k, ports := r.ports, bytes := 16, land_ := sdLocal w } true

/-- The ring's send: one already begun, or a new one. -/
def Dev.sendStart (d : Dev) (n w : Nat) : Dev := if (d.ring n).started then d else d.sendBegin n w

/-- FAB_SEND_PUT, GET and AMO for a ring: the next packet of the descriptor at HEAD is cut, in order of offset (R291);
a PUT waits for its message slot (R294). -/
def Dev.ringSend (d : Dev) (n kind : Nat) : Dev :=
  match d.ringDesc n kind with
  | none => d
  | some w =>
    let st := if (d.ring n).started then 0 else d.sendStatus n w
    if st ≠ 0 then d.sendRefuse n w st
    else if kind = 0 ∧ (d.ring n).started = false ∧ d.slotBusy n (sdRank w) (sdMsg w % 16) then d
    else match d.route n (sdRank w) with
      | none => match (d.ring n).send with
        | some i => (d.raise (aFab 0) 4).sendLost i
        | none => d
      | some r =>
        let d1 := d.sendStart n w
        let g := d1.ring n
        match g.send with
        | none => d1
        | some i =>
          if ((Tbl.look d1.fab.sends i).map (fun s => s.cut)).getD true then d1
          else match kind with
            | 0 => d1.cutPut n w i g.off r
            | 1 => d1.cutGet n w i g.off r
            | _ => d1.cutAmo n w i r

/-! ## Squirrel's sends (R351, R353, R358) -/

/-- The lowest free message slot toward a rank: Squirrel's MSG_ID (log entry 64). -/
def Dev.freeSlot (d : Dev) (n rank : Nat) : Option Nat := (List.range 16).find? (fun s => !d.slotBusy n rank s)

/-- Bytes of a Squirrel send. -/
def HwSend.len (h : HwSend) : Nat := match h.get with
  | some (_, n) => n
  | none => h.data.length

/-- Address of a Squirrel send at its destination: in the reduction window for an XOR send (R242, R353). -/
def HwSend.dst (h : HwSend) : Nat := match h.op with
  | some o => redBase + 2 ^ 41 * o + h.addr
  | none => h.addr

/-- A Squirrel send that cannot be made ends (R278, R292, R360). -/
def Dev.hwFail (d : Dev) (h : HwSend) : Dev :=
  let d1 : Dev := { d with hwSends := d.hwSends.drop 1 }
  let s : Send := { job := h.job, kind := 0, dst := h.rank, msg := 0, coll := 0, total := h.len, hw := true, gen := h.gen }
  if h.poison then ((d1.sendRecord s 0x12).raise (aFab 0) 2).jobStop h.job 0x12 0x1FF
  else (d1.raise (aFab 0) 4).sendRecord s 0x0C

/-- The packet of a Squirrel send at its offset. -/
def Dev.hwPkt (d : Dev) (h : HwSend) (msg : Nat) (r : Route) : OutPkt :=
  let len := pieceLen h.dst h.off h.len
  let k : Pkt := { (d.reqPkt h.job h.rank r) with
    type := if h.get.isSome then 1 else 0, last := h.get.isNone && decide (h.len ≤ h.off + len), len := len, msg := msg, off := h.off
    addr := h.dst + h.off, data := if h.get.isSome then [] else (h.data.drop h.off).take len }
  { pkt := k, ports := r.ports, bytes := len, land_ := ((h.get.map (fun x => x.1)).getD 0) + h.off }

/-- The next packet of Squirrel's oldest send, of a KIND. -/
def Dev.hwSend (d : Dev) (kind : Nat) : Dev :=
  match d.hwSends with
  | [] => d
  | h :: t =>
    if (if h.get.isSome then 1 else 0) ≠ kind then d
    else if h.poison then d.hwFail h
    else match d.route h.job h.rank with
      | none => d.hwFail h
      | some r =>
        match h.send with
        | some i =>
          let o := d.hwPkt h ((Tbl.look d.fab.sends i).map (fun s => s.msg) |>.getD 0) r
          let d1 := d.sendCut i o (decide (h.len ≤ h.off + o.bytes))
          { d1 with hwSends := if h.len ≤ h.off + o.bytes then t else { h with off := h.off + o.bytes } :: t }
        | none =>
          match d.freeSlot h.job h.rank with
          | none => d
          | some slot =>
            let i := d.fab.sendNo
            let s : Send := { job := h.job, kind := kind, dst := h.rank, msg := slot, coll := 0, total := h.len, hw := true, gen := h.gen }
            let o := d.hwPkt h slot r
            let d1 := (d.onFab (fun f => { f with sendNo := i + 1, sends := f.sends.put i s })).sendCut i o (decide (h.len ≤ o.bytes))
            { d1 with hwSends := if h.len ≤ o.bytes then t else { h with off := o.bytes, send := some i } :: t }

/-- FAB_SEND_PUT: a ring's, or Squirrel's. -/
def Dev.sendPut (d : Dev) (who : Option Nat) : Dev := match who with
  | some n => d.ringSend n 0
  | none => d.hwSend 0

/-- FAB_SEND_GET: a ring's, or Squirrel's. -/
def Dev.sendGet (d : Dev) (who : Option Nat) : Dev := match who with
  | some n => d.ringSend n 1
  | none => d.hwSend 1

/-! ## A packet leaves (R286–R288, R293) -/

/-- May a new packet start on a port: up, not in a window, not due for one at its master (R293, R303)? -/
def Dev.usable (d : Dev) (p : Nat) : Bool :=
  let s := d.port p
  s.up && !s.window && !(s.master && decide (s.due ≤ d.tick))

/-- The port a packet takes: the one with the most credit in its class, ties to the lowest (R293); a collective's, the
lowest (R299). -/
def Dev.pickPort (d : Dev) (o : OutPkt) : Option Nat :=
  let l := o.ports.filter d.usable
  if o.low then l.head?
  else l.foldl (fun b p => match b with
    | none => some p
    | some q => if (d.port q).credit o.pkt.cls < (d.port p).credit o.pkt.cls then some p else some q) none

/-- Why a packet does not leave. -/
inductive TxWait where
  | ready | tag | window | credit | other
  deriving DecidableEq, Repr

/-- The lowest tag from n on that is neither in use nor held back. -/
def Dev.freeTagFrom (d : Dev) : Nat → Nat → Option Nat
  | 0, _ => none
  | k + 1, n =>
    if (Tbl.look d.fab.tags n).isNone ∧ (Tbl.look d.fab.quar n).getD 0 ≤ d.tick then some n else d.freeTagFrom k (n + 1)

/-- The lowest free tag. -/
def Dev.freeTag (d : Dev) : Option Nat := d.freeTagFrom 65536 0

/-- Bytes outstanding for a job and rank (R288). -/
def Dev.winUse (d : Dev) (n r : Nat) : Nat :=
  (d.fab.tags.filter (fun p => p.2.job == n && p.2.dst == r)).foldl (fun s p => s + p.2.bytes) 0

/-- Input index of a port (R299), and the ports of an input. -/
def inputOf (p : Nat) : Nat := if p < 21 then p / 3 else p - 14
def inputPorts (i : Nat) : List Nat := if i < 7 then groupPorts (i + 1) else [i + 14]

/-- Slot credits held for a collective at the device of a port, with the one that comes back now (R301). -/
def Dev.slotCredits (d : Dev) (p coll : Nat) (back : Bool) : Nat := min 8 (d.fab.slots.getD (16 * inputOf p + coll) 8 + b2n back)

/-- Does packet i of the outputs leave on port p now? `slot`: a slot credit comes back from the next device for the
collective whose chunk is next (R301). -/
def Dev.txWait (d : Dev) (p : Nat) (slot : Bool) (i : Nat) (o : OutPkt) : TxWait :=
  if d.pickPort o ≠ some p ∨ (o.send.isSome ∧ (d.fab.out.take i).any (fun x => x.send == o.send)) then .other
  else if (o.pkt.cls = 3 ∨ o.pkt.cls = 4) ∧ d.slotCredits p o.pkt.coll slot = 0 then .other
  else if (d.port p).credit o.pkt.cls < o.pkt.flits then .credit
  else if 1024 < (d.port p).replayFlits + o.pkt.flits then .other
  else if o.send.isNone then .ready
  else if d.fld (aFab 0x104) 15 0 * 1024 < d.winUse o.pkt.job o.pkt.dst + o.bytes then .window
  else if d.freeTag.isNone then .tag
  else .ready

/-- Order of the classes at a port output (R286). -/
def classOrder : List Nat := [5, 1, 2, 4, 3, 0]

/-- The first ready packet of each class, in the order of R286. -/
def Dev.readyList (d : Dev) (p : Nat) (slot : Bool) : List (Nat × Nat × OutPkt) :=
  classOrder.filterMap (fun c =>
    (d.fab.out.zipIdx.find? (fun x => x.1.pkt.cls == c && d.txWait p slot x.2 x.1 == .ready)).map (fun x => (c, x.2, x.1)))

/-- The packet that is granted: of a class passed over STARVE times, else of the first class (R286). -/
def Dev.txGrant (d : Dev) (p : Nat) (slot : Bool) : Option (Nat × Nat × OutPkt) :=
  let l := d.readyList p slot
  match l.find? (fun x => decide (max 1 (d.fld (aFab 0x108) 7 0) ≤ (d.port p).starve.getD x.1 0)) with
  | some x => some x
  | none => l.head?

/-- Passed-over counts after a grant. -/
def Dev.starveNext (d : Dev) (p : Nat) (slot : Bool) (cls : Nat) : Dev :=
  let s := d.port p
  d.putPort p { s with starve := (d.readyList p slot).foldl (fun l x =>
    setAt l x.1 (if x.1 = cls then 0 else l.getD x.1 0 + 1)) s.starve }

/-- A chunk that leaves takes a slot credit (R301). -/
def Dev.slotTake (d : Dev) (p : Nat) (slot : Bool) (o : OutPkt) : Dev :=
  if o.pkt.cls = 3 ∨ o.pkt.cls = 4 then
    d.onFab (fun f => { f with slots := f.slots.put (16 * inputOf p + o.pkt.coll) (d.slotCredits p o.pkt.coll slot - 1) })
  else d

/-- The granted packet leaves, a request with its tag, a chunk with its slot credit (R287, R288, R301). -/
def Dev.txLeave (d : Dev) (p i : Nat) (slot : Bool) (o : OutPkt) : Dev :=
  let d0 := (d.slotTake p slot o).onFab (fun f => { f with out := f.out.eraseIdx i })
  match o.send with
  | none => d0.transmit p o.pkt
  | some s =>
    let tag := d.freeTag.getD 0
    let t : Tag := { job := o.pkt.job, dst := o.pkt.dst, type := o.pkt.type, bytes := o.bytes, land_ := o.land_, send := s, tick := d.tick }
    ((d0.onFab (fun f => { f with tags := f.tags.put tag t, quar := f.quar.del tag })).transmit p { o.pkt with tag := tag }).ringSettle s o.pkt.job

/-- The waits of a port's packets. -/
def Dev.txWaits (d : Dev) (p : Nat) : List TxWait :=
  if d.fab.out.isEmpty ∨ !d.usable p then [] else d.fab.out.zipIdx.map (fun x => d.txWait p false x.2 x.1)

/-- The waits for credit, a tag or a window in one cycle, counted (R285, R287, R288, R306, R307). -/
def Dev.txTick (d : Dev) : Dev :=
  if d.fab.out.isEmpty then d
  else
    let ws := (List.range 24).map d.txWaits
    let d1 := ws.zipIdx.foldl (fun (d : Dev) x => if x.1.contains .credit then d.inc (aSlp x.2 0x120) else d) d
    let d2 := if ws.any (fun l => l.contains .tag) then d1.inc (aFab 0x11C) else d1
    if ws.any (fun l => l.contains .window) then d2.inc (aFab 0x120) else d2

/-- A COL descriptor whose data is all taken and whose chunks have all left is written back; a REDUCE is then over for a
device that is not the root (R291, R300). -/
def Dev.colSettle (d : Dev) (c : Nat) : Dev :=
  match Tbl.look d.fab.cols c with
  | none => d
  | some k =>
    if k.off < k.len ∨ d.fab.chunks.any (fun x => x.coll == c && x.input == 10)
      ∨ d.fab.out.any (fun o => o.pkt.coll == c && (o.pkt.type == 6 || o.pkt.type == 7)) then d
    else
      let done : Bool := k.finished || (k.mode == 1 && decide (d.fld (aFabColl c 0) 3 0 ≤ 9))
      let d1 := if done then d.onFab (fun f => { f with cols := f.cols.del c }) else d
      let r := d1.ring k.job
      if k.gate = false ∧ r.st = .active ∧ r.started ∧ (r.desc.map (fun w => sdKind w == 3 && sdColl w == c)).getD false
      then d1.ringDone k.job else d1

/-- FAB_PACKET_SEND: the next packet leaves on a port, one of the replay buffer first (R283, R286, R293). -/
def Dev.packetSend (d : Dev) (p : Nat) (slot : Bool) : Dev :=
  if !d.usable p then d
  else if (d.port p).again ≠ [] then d.retransmit p
  else match d.txGrant p slot with
    | none => d
    | some (cls, i, o) =>
      let d1 := (d.starveNext p slot cls).txLeave p i slot o
      if o.pkt.type = 6 ∨ o.pkt.type = 7 then d1.colSettle o.pkt.coll else d1

/-! ## Ports held down (R276, R284, R297, R430) -/

/-- A port is held down: the requests of its replay buffer are lost. -/
def Dev.portHold (d : Dev) (p : Nat) : Dev :=
  let s := d.port p
  let d1 := d.putPort p { s.fresh with up := false, held := true, training := false, lanes := 0, width := 0, credits := [], window := false, tx := s.tx }
  let d2 := (s.replay.filter (fun t => t.pkt.cls == 0)).foldl (fun d t => d.tagLost t.pkt.tag) d1
  (d2.raise (aSlp p 0) 2).portByte p

/-- PORT_HOLD_DOWN (R284). -/
def Dev.portHoldDown (d : Dev) (p : Nat) : Dev :=
  let s := d.port p
  if (s.training ∧ s.trainT + trainLimit ≤ d.tick) ∨ (s.up ∧ s.width < d.minWidth p) then d.portHold p else d

/-- PORT_SIGNAL_LOSS (R430). -/
def Dev.portLoss (d : Dev) (p : Nat) : Dev :=
  if (d.port p).held then d else (((d.inc (aSlp p 0x11C)).owlEv 5 1).portHold p)

/-- PORT_SIGNAL_RETURN (R430, R449). -/
def Dev.portReturn (d : Dev) (p : Nat) : Dev := if (d.port p).held then d.portTrain p else d

/-- Training of a port ends with these lanes usable (R284, R447, R448). -/
def Dev.portTrained (d : Dev) (p lanes : Nat) : Dev :=
  let s := d.port p
  if laneWidth lanes < d.minWidth p then d.portHold p
  else
    let d1 := d.portUp p lanes
    let d2 := if laneWidth lanes < s.width then d1.raise (aSlp p 0) 4 else d1
    if laneWidth lanes = s.width then d2 else d2.portByte p

/-- PORT_RETRAIN_DONE (R284). -/
def Dev.portRetrainDone (d : Dev) (p lanes : Nat) : Dev := if (d.port p).training then d.portTrained p lanes else d

/-- A peer on the board that does not match R275 is held down (R276). -/
def Dev.peerCheck (d : Dev) (p : Nat) : Dev :=
  let w := d.reg (aSlp p 0x108)
  if p < 21 ∧ flag w 31 ∧ d.bit (aFab 0x100) 31 ∧ (d.port p).up then
    let k := p / 3 + 1
    if Machine.fld w 30 19 = d.selfBoard ∧ Machine.fld w 18 16 = (d.selfDev + k) % 8 ∧ Machine.fld w 4 0 = 3 * (7 - k) + p % 3 then d
    else d.portHold p
  else d

/-- A peer's identity is known: SLP_PEER, for SP21–SP23 also FAB_OFFB_j, and the calendar's master (R276, R302). -/
def Dev.peerKnown (d : Dev) (p : Nat) (w : Word) : Dev :=
  let d1 := d.setReg (aSlp p 0x108) w
  let d2 := if 21 ≤ p then d1.setReg (aFab (0x134 + 4 * (p - 21))) w else d1
  let d3 := d2.peerCheck p
  if (d3.port p).up ∧ flag w 31 then d3.calStart p else d3

end Sys2Proof.Machine
end

