-- ==== Sys2Proof/Machine/Receive.lean ====
section
/-! DEFINITION. The receiving side of the Sloer fabric (10 R279, R282, R287–R290, R292, R294, R295, R297–R298) and
collectives (R299–R301). -/

namespace Sys2Proof.Machine

/-! ## Arrival -/

/-- A packet dropped and counted (R279, R297). -/
def Dev.strayCount (d : Dev) : Dev := d.inc (aFab 0x124)

/-- A packet that no job or rank here expects (R298). -/
def Dev.stray (d : Dev) : Dev := d.strayCount.raise (aFab 0) 0

/-- Is a packet of this type for this device, with as many bytes as its header says? -/
def Pkt.arrives (k : Pkt) (type : Nat) : Bool :=
  k.type == type && !k.via && k.data.length == (if type = 1 then 0 else k.len)

/-- Does the device serve the packet's job and rank (R298)? A chunk names no rank (log entry 65). -/
def Dev.expects (d : Dev) (k : Pkt) : Bool :=
  d.fabOn k.job && (k.type == 6 || k.type == 7 || k.dst == d.selfRank k.job)

/-- A packet of a type arrives on a port (R283, R298); `true`: its effect follows. -/
def Dev.arrive (d : Dev) (p type h : Nat) (data : List Byte) (e : FecErrs) : Dev × Bool :=
  let k := (Tx.ofHeader h data).pkt
  if k.arrives type then
    let (d1, ok) := d.linkRx p h data e
    if !ok then (d1, false)
    else if d1.expects k = false then (d1.stray, false)
    else (if k.poison then (d1.inc (aFab 0x12C)).raise (aFab 0) 1 else d1, true)
  else (d, false)

/-! ## Writes of a packet (R258, R289) -/

/-- Must a write wait: a window, a first-touch copy, or the target core's REMOTE share and banks (R200, R204, R208, R245)? -/
def Dev.fabWriteWaits (d : Dev) (n a len : Nat) : Bool :=
  (cutBlocks a (List.replicate len 0)).any (fun q =>
    match redOf q.1 with
    | some (_, x) => d.redWaits x
    | none => decide (q.1 < hbmEnd) && d.hbmWaits q.1 (decide (q.2.length < 64)))
  || (d.fabCmemWait (d.fabAccesses n a len false)).isSome

/-- A packet's write that waits is counted where it waits. -/
def Dev.fabWriteHeld (d : Dev) (n a len : Nat) : Dev := d.fabHeld (d.fabAccesses n a len false)

/-- First-touch copies start for the pages that a packet is about to write (R353); `true`: one runs, and the packet
waits for it. -/
def Dev.touchFirst (d : Dev) (a len : Nat) : Dev × Bool :=
  (cutBlocks a (List.replicate len 0)).foldl (fun (s : Dev × Bool) q =>
    let x := match redOf q.1 with
      | some (_, x) => x
      | none => q.1
    if x < hbmEnd then
      let (d1, held) := s.1.sqrHold { addr := x, data := [], poison := false }
      (d1, s.2 || held)
    else s) (d, false)

/-- The payload is written; `false`: a core did not take a write, and no acknowledgement comes (R29, R289). -/
def Dev.fabWrite (d : Dev) (p n a : Nat) (data : List Byte) (poison : Bool) : Dev × Bool :=
  (cutBlocks a data).foldl (fun (s : Dev × Bool) q =>
    match redOf q.1 with
    | some (op, x) => (s.1.postRed (portDie p) op x q.2 poison, s.2)
    | none =>
      let sunk := match (if q.1 < hbmEnd then none else cmemOf q.1) with
        | some (c, _) => !(s.1.delivers c (some n))
        | none => false
      ((s.1.devWrite (portDie p) (some n) q.1 q.2 poison).1, s.2 && !sunk)) (d.fabGrant (d.fabAccesses n a data.length false), true)

/-! ## PUT (R294, R295) -/

/-- Address of the message record of a source rank and slot. -/
def Dev.msgAt (d : Dev) (n src msg : Nat) : Nat := d.addr48 (aFabJ n 0x18) (aFabJ n 0x1C) 12 + (src * 16 + msg % 16) * 16

/-- The notify flag of a message is set on the job's NCORE (R180, R295), when the job's NOTIFY_EN allows it. -/
def Dev.fabNotify (d : Dev) (n flagNo : Nat) : Dev :=
  let c := d.fld (aFabJ n 0) 24 16
  if d.bit (aFabJ n 0) 30 ∧ c ≤ 311 then (if d.delivers c (some n) then d.setFlags c (2 ^ flagNo) else d.sink c) else d

/-- The message count of a PUT packet whose writes are complete (R295). -/
def Dev.msgCount (d : Dev) (die : Nat) (k : Pkt) : Dev :=
  let w := d.msgAt k.job k.src k.msg
  let d1 := if k.last then d.rawWrite (w + 8) (bytesLE 8 (k.off + k.len)) else d
  let add := (if k.last then k.len + 2 ^ 40 + 2 ^ 64 - (k.off + k.len) else k.len) % 2 ^ 64
  let (d2, old, _) := d1.atomicAt die 0x02 w add 0
  if (old + add) % 2 ^ 64 = 2 ^ 40 then
    let total := ofBytesLE (d2.peek (w + 8) 8)
    let d3 := (d2.atomicAt die 0x12 w 0 0).1
    let d4 := d3.cqWrite k.job ⟨0, 0, k.src, k.coll, k.msg, total⟩
    if bitN k.op 4 then d4.fabNotify k.job k.coll else d4
  else d2

/-- The ACK of a request. -/
def Dev.ackPkt (d : Dev) (k : Pkt) : Pkt := { type := 3, cls := 1, job := k.job, src := d.selfRank k.job, dst := k.src, tag := k.tag }

/-- First-touch copies start for the pages of a PUT and of its message record. -/
def Dev.touchPut (d : Dev) (k : Pkt) : Dev × Bool :=
  let (d1, a) := d.touchFirst k.addr k.len
  let (d2, b) := d1.touchFirst (d.msgAt k.job k.src k.msg) 16
  (d2, a || b)

/-- PUT_RECEIVE (R289, R295). -/
def Dev.putReceive (d : Dev) (p h : Nat) (data : List Byte) (e : FecErrs) : Dev :=
  let k := (Tx.ofHeader h data).pkt
  if k.arrives 0 ∧ d.expects k ∧ (d.fabWriteWaits k.job k.addr k.len ∨ d.fabWriteWaits k.job (d.msgAt k.job k.src k.msg) 16) then
    d.fabWriteHeld k.job k.addr k.len
  else
    let (d0, held) := if k.arrives 0 ∧ d.expects k ∧ (d.port p).up then d.touchPut k else (d, false)
    if held then d0
    else
      let (d1, ok) := d0.arrive p 0 h data e
      if !ok then d1
      else
        let (d2, taken) := d1.fabWrite p k.job k.addr data k.poison
        if taken then (d2.msgCount (portDie p) k).reply (d2.ackPkt k) else d2

/-! ## GET and AMO at the destination (R282, R292) -/

/-- GET_RECEIVE: a poisoned block is sent with POISON, and stops the job (R292). -/
def Dev.getReceive (d : Dev) (p h : Nat) (e : FecErrs) : Dev :=
  let k := (Tx.ofHeader h []).pkt
  if k.arrives 1 ∧ d.expects k ∧ d.fabReadWaits k.job k.addr k.len then d.fabHeld (d.fabAccesses k.job k.addr k.len true)
  else
    let (d1, ok) := d.arrive p 1 h [] e
    if !ok then d1
    else
      let (d2, g) := d1.fabRead k.job k.addr k.len
      let d3 := d2.reply { (d2.ackPkt k) with type := 2, len := k.len, off := k.off, poison := g.poison, data := g.data }
      if g.poison then (d3.raise (aFab 0) 2).jobStop k.job 0x12 0x1FF else d3

/-- AMO_RECEIVE (R241, R282): the old value goes back, poisoned when the slice refused the atomic (R243). -/
def Dev.amoReceive (d : Dev) (p h : Nat) (data : List Byte) (e : FecErrs) : Dev :=
  let k := (Tx.ofHeader h data).pkt
  if k.arrives 4 ∧ d.expects k ∧ k.addr < hbmEnd ∧ d.hbmWaits k.addr true then d
  else
    let (d0, held) := if k.arrives 4 ∧ d.expects k ∧ (d.port p).up ∧ k.addr < hbmEnd then d.sqrHold { addr := k.addr, data := [], poison := false }
      else (d, false)
    if held then d0
    else
      let (d1, ok) := d0.arrive p 4 h data e
      if !ok then d1
      else match d1.atomic (portDie p) k.op k.addr (ofBytesLE (data.take 8)) (ofBytesLE (data.drop 8)) with
        | (d2, some (old, bad)) => d2.reply { (d2.ackPkt k) with type := 5, len := 8, poison := bad || k.poison, data := bytesLE 8 old }
        | (d2, none) => d2

/-! ## Responses (R287, R288) -/

/-- The tag that a response names, when it is in use for a request of its kind. -/
def Dev.tagFor (d : Dev) (k : Pkt) (type : Nat) : Option Tag := (Tbl.look d.fab.tags k.tag).filter (fun t => t.type == type)

/-- A response lands where its tag says, and frees the tag. -/
def Dev.respond2 (d : Dev) (p : Nat) (k : Pkt) (type : Nat) (data : List Byte) : Dev :=
  match d.tagFor k type with
  | none => d.strayCount
  | some t => ((d.fabWrite p t.job t.land_ data k.poison).1).tagDone k.tag t

/-- Bytes of an AMO response that land: the descriptor's LEN (R291). -/
def Dev.amoLand (d : Dev) (k : Pkt) : List Byte :=
  let n := match d.tagFor k 4 with
    | some t => ((Tbl.look d.fab.sends t.send).map (fun s => s.total)).getD 8
    | none => 8
  k.data.take n

/-- GET_RSP_RECEIVE and AMO_RSP_RECEIVE, for the request type they answer. -/
def Dev.rspReceive (d : Dev) (p type req h : Nat) (data : List Byte) (e : FecErrs) : Dev :=
  let k := (Tx.ofHeader h data).pkt
  let land_ := ((d.tagFor k req).map (fun t => t.land_)).getD 0
  if k.arrives type ∧ d.expects k ∧ d.fabWriteWaits k.job land_ k.len then d.fabWriteHeld k.job land_ k.len
  else
    let (d0, held) := if k.arrives type ∧ d.expects k ∧ (d.port p).up ∧ (d.tagFor k req).isSome then d.touchFirst land_ k.len else (d, false)
    if held then d0
    else
      let (d1, ok) := d0.arrive p type h data e
      if ok then d1.respond2 p k req (if req = 4 then d1.amoLand k else data) else d1

/-- ACK_RECEIVE (R287). -/
def Dev.ackReceive (d : Dev) (p h : Nat) (e : FecErrs) : Dev :=
  let k := (Tx.ofHeader h []).pkt
  let (d1, ok) := d.arrive p 3 h [] e
  if ok then (match d1.tagFor k 0 with
    | some t => d1.tagDone k.tag t
    | none => d1.strayCount) else d1

/-! ## Forwarding and management (R279, R290) -/

/-- FWD_PACKET: a packet with VIA set, a REQ becoming FWD; `mesh`: a mesh error poisons it on its way (R292). -/
def Dev.fwdPacket (d : Dev) (p h : Nat) (data : List Byte) (mesh : Bool) (e : FecErrs) : Dev :=
  let k := (Tx.ofHeader h data).pkt
  if k.via = false ∨ 1 < k.cls then d
  else
    let (d1, ok) := d.linkRx p h data e
    if !ok then d1
    else
      let ps := d1.secondHop k.board k.dev
      if ps.isEmpty then d1.strayCount
      else (d1.inc (aFab 0x128)).pushOut
        { pkt := { k with via := false, cls := if k.cls = 0 then 2 else 1, poison := k.poison || (mesh && !data.isEmpty) }, ports := ps }

/-- MGMT_RECEIVE (R290): the management processor consumes the packet; `self`: the FAB_SELF of the peer that it carries,
with the peer's port (R276, R462). -/
def Dev.mgmtReceive (d : Dev) (p h : Nat) (data : List Byte) (self : Option Word) (e : FecErrs) : Dev :=
  let k := (Tx.ofHeader h data).pkt
  if k.type ≠ 8 ∨ data.length ≠ k.len then d
  else
    let (d1, ok) := d.linkRx p h data e
    if !ok then d1
    else
      let d2 := d1.onFab (fun f => { f with mgmt := (p, data) :: f.mgmt })
      match self with
      | some w => d2.peerKnown p w
      | none => d2

/-! ## Collectives (R299–R301) -/

/-- CHILDREN inputs of a collective, ascending; whether the device is its root, and whether it takes part itself. -/
def Dev.colKids (d : Dev) (c : Nat) : List Nat := (List.range 10).filter (fun i => d.bit (aFabColl c 0) (16 + i))
def Dev.colRoot (d : Dev) (c : Nat) : Bool := decide (9 < d.fld (aFabColl c 0) 3 0)
def Dev.colLocal (d : Dev) (c : Nat) : Bool := d.bit (aFabColl c 0) 30
def Dev.colValid (d : Dev) (c n : Nat) : Bool := d.bit (aFabColl c 0) 31 && d.fld (aFabColl c 4) 29 24 == n

/-- A chunk's packet. -/
def Dev.colPkt (d : Dev) (type c n op off addr : Nat) (data : List Byte) (poison : Bool) : Pkt :=
  { type := type, cls := type - 3, job := n, src := d.selfRank n, op := op, coll := c, len := data.length, off := off, addr := addr
    data := data, poison := poison }

/-- COL_DN copies to every child. -/
def Dev.colDown (d : Dev) (c n op off addr : Nat) (data : List Byte) (poison : Bool) : Dev :=
  (d.colKids c).foldl (fun d i => d.pushOut { pkt := d.colPkt 7 c n op off addr data poison, ports := inputPorts i, low := true }) d

/-- A collective is complete here: its COL_DONE record; the gate decides (R300, R322, R324). PEER is not stated: a free
value. -/
def Dev.colDone (d : Dev) (c : Nat) (k : Col) (status : Nat) : Dev :=
  let d1 := d.onFab (fun f => { f with cols := f.cols.put c { k with off := k.len, finished := true }, landed := f.landed.del c })
  let d2 := d1.useFree.cqWrite k.job ⟨4, status, (Config.freeValue d1.free).toNat, c, 0, k.len⟩
  (if k.gate then d2.gateDone k.job status else d2).colSettle c

/-- Is every chunk here? -/
def Dev.colCheck (d : Dev) (c : Nat) : Dev :=
  match Tbl.look d.fab.cols c with
  | some k => if k.finished = false ∧ k.len ≤ d.fab.landed.getD c 0 ∧ k.len ≤ k.off then d.colDone c k 0 else d
  | none => d

/-- A chunk lands here (R300). -/
def Dev.colLand (d : Dev) (p c n addr : Nat) (data : List Byte) (poison : Bool) : Dev :=
  let d1 := (d.fabWrite p n addr data poison).1
  (d1.onFab (fun f => { f with landed := f.landed.store 0 c (f.landed.getD c 0 + data.length) })).colCheck c

/-- FAB_SEND_COL of a descriptor that is refused: its record, or the gate's failure. -/
def Dev.colRefuse (d : Dev) (n : Nat) (gate : Bool) (k : Col) (c w : Nat) : Dev :=
  if gate then ({ d with gateSends := setDel d.gateSends n } : Dev).colDone c k 0x03 else d.sendRefuse n w 0x03

/-- The collective that FAB_SEND_COL serves: of the ring's descriptor, or the gate's (R291, R322); with its ID and the
descriptor. -/
def Dev.colOf (d : Dev) (n : Nat) (gate : Bool) : Option (Nat × Col × Nat) :=
  if gate then
    if d.gateSends.contains n then
      some (d.fld (aStepJ n 4) 19 16, { job := n, mode := 0, op := 6, len := 4, src := d.gateLine n, dst := d.gateLine n + 0x40, gate := true }, 0)
    else none
  else (d.ringDesc n 3).map (fun w =>
    (sdColl w, { job := n, mode := sdMode w, op := sdOp w, len := sdLen w, src := sdLocal w, dst := sdRemote w }, w))

/-- The collective's progress. -/
def Dev.colPut (d : Dev) (c : Nat) (k : Col) : Dev :=
  let d1 := d.onFab (fun f => { f with cols := f.cols.put c k })
  if k.gate then (if k.len ≤ k.off then { d1 with gateSends := setDel d1.gateSends k.job } else d1)
  else d1.putRing k.job { (d1.ring k.job) with started := true, off := k.off }

/-- The next chunk of the device's own data (R300). -/
def Dev.colChunk (d : Dev) (c : Nat) (k : Col) (w : Nat) : Dev :=
  let len := min 4096 (k.len - k.off)
  if 8 ≤ (d.fab.chunks.filter (fun x => x.coll == c && x.input == 10)).length then d
  else if d.fabReadWaits k.job (k.src + k.off) len then d.fabHeld (d.fabAccesses k.job (k.src + k.off) len true)
  else
    let (d1, g) := d.fabRead k.job (k.src + k.off) len
    if g.poison then
      (if k.gate then ((({ d1 with gateSends := setDel d1.gateSends k.job } : Dev).cqWrite k.job ⟨1, 0x12, 0, c, 0, k.len⟩).raise (aFab 0) 2).jobStop k.job 0x12 0x1FF
       else d1.sendPoisoned k.job w)
    else
      let k1 := { k with off := k.off + len }
      let d2 := d1.colPut c k1
      if k.mode = 2 then ((d2.colDown c k.job k.op k.off (k.dst + k.off) g.data false).colLand 0 c k.job (k.dst + k.off) g.data false).colSettle c
      else d2.onFab (fun f => { f with chunks := f.chunks ++ [⟨c, 10, k.off, k.op, k.job, g.data, false⟩] })

/-- FAB_SEND_COL (R291, R300, R322). A collective ID serves one collective at a time; a BCAST's data comes from the root
alone. -/
def Dev.sendCol (d : Dev) (n : Nat) (gate : Bool) : Dev :=
  match d.colOf n gate with
  | none => d
  | some (c, k0, w) =>
    match Tbl.look d.fab.cols c with
    | some k =>
      if k.job = n ∧ k.gate = gate ∧ k.off < k.len ∧ (gate ∨ (d.ring n).started) then d.colChunk c k w else d
    | none =>
      if (gate ∧ d.treeOk c n = false) ∨ (!gate ∧ d.sendStatus n w ≠ 0) then d.colRefuse n gate k0 c w
      else if !gate ∧ (d.ring n).started then d
      else if k0.len = 0 ∨ (k0.mode = 2 ∧ d.colRoot c = false) then
        ((d.colPut c { k0 with off := k0.len }).colSettle c).colCheck c
      else (d.colPut c k0).colChunk c k0 w

/-- COL_UP_RECEIVE (R299–R301). -/
def Dev.colUpReceive (d : Dev) (p h : Nat) (data : List Byte) (e : FecErrs) : Dev :=
  let k := (Tx.ofHeader h data).pkt
  let (d1, ok) := d.arrive p 6 h data e
  if !ok then d1
  else if d1.colValid k.coll k.job = false ∨ (d1.colKids k.coll).contains (inputOf p) = false
      ∨ 8 ≤ (d1.fab.chunks.filter (fun x => x.coll == k.coll && x.input == inputOf p)).length then d1.strayCount
  else d1.onFab (fun f => { f with chunks := f.chunks ++ [⟨k.coll, inputOf p, k.off, k.op, k.job, data, k.poison⟩] })

/-- The inputs that a chunk needs, in the order of combining: local, then children ascending (R300). -/
def Dev.colNeeds (d : Dev) (c : Nat) : List Nat := (if d.colLocal c then [10] else []) ++ d.colKids c

/-- The chunks of one OFFSET, in the order of combining; `none` while one is missing. -/
def Dev.colInputs (d : Dev) (c off : Nat) : Option (List ColChunk) :=
  (d.colNeeds c).foldr (fun i acc =>
    match acc, d.fab.chunks.find? (fun x => x.coll == c && x.off == off && x.input == i) with
    | some l, some x => some (x :: l)
    | _, _ => none) (some [])

/-- Chunks combined in order with the op of R242, poison of any input kept (R52, R300). -/
def colSum : List ColChunk → Option ColChunk
  | [] => none
  | x :: l => some (l.foldl (fun a b => { a with data := redBytes a.op a.data b.data, poison := a.poison || b.poison }) x)

/-- COL_CHUNK_COMBINE (R300): to PARENT, or at the root to REMOTE_ADDR or down. The root needs its descriptor, which names
the mode and the address. -/
def Dev.colCombine (d : Dev) (c off : Nat) : Dev :=
  match d.colInputs c off with
  | none => d
  | some l =>
    match colSum l with
    | none => d
    | some x =>
      let d1 := d.onFab (fun f => { f with chunks := f.chunks.filter (fun y => !(y.coll == c && y.off == off)) })
      if d.colRoot c = false then
        (d1.pushOut { pkt := d.colPkt 6 c x.job x.op off 0 x.data x.poison, ports := inputPorts (d.fld (aFabColl c 0) 3 0), low := true }).colSettle c
      else match Tbl.look d.fab.cols c with
        | none => d
        | some k =>
          if d.fabWriteWaits k.job (k.dst + off) x.data.length then d.fabWriteHeld k.job (k.dst + off) x.data.length
          else
            let d2 := if k.mode = 0 then d1.colDown c k.job x.op off (k.dst + off) x.data x.poison else d1
            (if d.colLocal c ∨ k.mode = 1 then d2.colLand 0 c k.job (k.dst + off) x.data x.poison else d2).colSettle c

/-- COL_DN_RECEIVE (R300, R301). -/
def Dev.colDnReceive (d : Dev) (p h : Nat) (data : List Byte) (e : FecErrs) : Dev :=
  let k := (Tx.ofHeader h data).pkt
  if k.arrives 7 ∧ d.expects k ∧ d.fabWriteWaits k.job k.addr k.len then d.fabWriteHeld k.job k.addr k.len
  else
    let (d0, held) := if k.arrives 7 ∧ d.expects k ∧ (d.port p).up ∧ d.colLocal k.coll then d.touchFirst k.addr k.len else (d, false)
    if held then d0
    else
      let (d1, ok) := d0.arrive p 7 h data e
      if !ok then d1
      else if d1.colValid k.coll k.job = false ∨ inputOf p ≠ d1.fld (aFabColl k.coll 0) 3 0 then d1.strayCount
      else
        let d2 := d1.colDown k.coll k.job k.op k.off k.addr data k.poison
        if d2.colLocal k.coll then d2.colLand p k.coll k.job k.addr data k.poison else d2

end Sys2Proof.Machine
end

