-- ==== Sys2Proof/Machine/Floor.lean ====
section
/-! DEFINITION. Configuration epochs (14 R424–R428), core reset (R420), the floor plan and core fences (01 R18–R27, R47,
12 R343). -/

namespace Sys2Proof.Machine

/-! ## Pages -/

/-- Registers and shadows of the addresses that a test picks return to their reset values (R420, R423). -/
def Dev.dropRegs (d : Dev) (f : Nat → Bool) : Dev := { d with regs := d.regs.delWhere f, shadow := d.shadow.delWhere f }

/-- Does an address lie in the page at a base? -/
def inPage (base a : Nat) : Bool := a / 0x1000 == base / 0x1000

/-- Bases of the device pages that have the common header, and of a core's pages (R11, R486). -/
def devicePages : List Nat :=
  ((pageRows.filter (fun r => r.kind != .fwlData && r.kind != .msix)).flatMap (fun r => (List.range r.count).map (fun i => r.base + 0x1000 * i)))
def corePageList (c : Nat) : List Nat := [aCctl c 0, aPln c 0, aStrm c 0, aCmem c 0]

/-- Epoch for which a page is armed, 0 for none (R425). -/
def Dev.armedFor (d : Dev) (base : Nat) : Nat := d.fld (base + 0x28) 31 16

/-- CFG_COMMIT with a non-zero EPOCH (R425, R426). -/
def Dev.commit (d : Dev) (base e : Nat) : Dev :=
  if e = 0 then d
  else if d.armedFor base ≠ 0 then d.putB (base + 0x28) 15 true
  else d.setF (base + 0x28) 31 16 e

/-- CFG_COMMIT with EPOCH 0 (R426). -/
def Dev.disarm (d : Dev) (base : Nat) : Dev :=
  (({ d with shadow := d.shadow.delWhere (inPage base) } : Dev).setF (base + 0x28) 31 16 0).putB (base + 0x28) 15 false

/-- Is an address that of a NOC_RED register (R48)? -/
def isRedReg (a : Nat) : Bool :=
  (inPage (aNoc 0 0) a || inPage (aNoc 1 0) a) && decide (0x120 ≤ a % 0x1000) && decide (a % 0x1000 < 0x1A0)

/-- The reduction ID of a NOC_RED register, when it is busy (R43). -/
def Dev.redHeld (d : Dev) (a : Nat) : Bool := isRedReg a && d.redBusy ((a % 0x1000 - 0x120) / 8)

/-- Reduction registers written while their ID was busy take effect at an epoch after it is idle (R43). -/
def Dev.redFlush (d : Dev) (base : Nat) : Dev :=
  (d.redLate.filter (fun p => inPage base p.1 && isRedReg p.1 && !d.redHeld p.1)).foldl
    (fun d p => { (d.setReg p.1 p.2) with redLate := d.redLate.del p.1 }) d

/-- What follows when registers of a page take effect: a core's maps give PLN_PACK_VALID (R99), a port's calendar and a stack's
windows move to their new places (R245, R302). -/
def Dev.afterApply (old d : Dev) (base : Nat) : Dev :=
  match pageOf base with
  | none => d
  | some p => match p.kind with
    | .pln => if old.packRegs p.n = d.packRegs p.n then d else d.setReg (aPln p.n 0x10C) (BitVec.ofNat 32 (d.packValid p.n))
    | .slp => if (d.port p.n).master ∧ old.reg (aSlp p.n 0x130) ≠ d.reg (aSlp p.n 0x130) then d.calAlign p.n else d
    | .fabMain => if old.slpPeriod = d.slpPeriod then d else
        (List.range 24).foldl (fun d q => if (d.port q).master then d.calAlign q else d) d
    | .hmc => if old.reg (aHmc p.n 0x120) = d.reg (aHmc p.n 0x120) then d else d.hmcAlign p.n
    | .hmcMap => if old.hmcPeriod = d.hmcPeriod then d else (List.range 16).foldl Dev.hmcAlign d
    | _ => d

/-- A page armed for E applies its shadows (R426). -/
def Dev.applyPage (d : Dev) (base e : Nat) : Dev :=
  let d0 := d.redFlush base
  if d0.armedFor base ≠ e ∨ e = 0 then d0
  else
    let d1 := (d0.shadow.filter (fun p => inPage base p.1)).foldl
      (fun d p => if d.redHeld p.1 then { d with redLate := d.redLate.put p.1 (d0.shad p.1) } else d.setReg p.1 (d0.shad p.1)) d0
    Dev.afterApply d0 ((d1.disarm base).setF (base + 0x20) 15 0 e) base

/-- PLN_CHK_FENCE takes the lanes that a CHECKER decision has fenced, at an epoch of the core, armed page or not (R111, R339). -/
def Dev.laneFences (d : Dev) (c : Nat) : Dev :=
  [0, 1].foldl (fun d p => if ((d.core c).edge p).laneOff then d.putB (aPln c 0x124) p true else d) d

/-- CORE_EPOCH_APPLY (R427). -/
def Dev.coreEpoch (d : Dev) (c e : Nat) : Dev :=
  if (d.core c).reached e then ((corePageList c).foldl (fun d b => d.applyPage b e) d).laneFences c else d

/-- RST_EPOCH_REQ (R428): a scope, every active core or a job's, and an epoch. -/
def Dev.epochReq (d : Dev) (all : Bool) (job e : Nat) : Dev :=
  if d.bit (aRst 0x11C) 31 then d.raise (aRst 0) 0
  else { ((d.putB (aRst 0x11C) 31 true).setF (aRst 0x11C) 15 0 e) with epochJob := if all then none else some job }

/-! ## Core reset (R420) -/

/-- Registers of a core that only cold and warm reset clear. -/
def coreKept (c a : Nat) : Bool := a == aPln c 0x100 || a == aPln c 0x104 || a == aPln c 0x124

/-- CORE_BUSY as the cores stand, outside a compute reset. -/
def Dev.showCoreBusy (d : Dev) : Dev := d.putB (aRst 0x10C) 2 (!d.bit (aRst 0x10C) 0 && d.cores.any (fun p => p.2.inReset))

/-- A core reset begins: streams, slots, queues, counters, table RAM and configuration registers at their reset values. -/
def Dev.coreReset (d : Dev) (c : Nat) : Dev :=
  let fence := d.bit (aCctl c 8) 2
  let d1 := d.dropRegs (fun a => decide (aCctl c 0 ≤ a) && decide (a < aCctl c 0x4000) && !coreKept c a)
  let d2 := if fence then d1.putB (aCctl c 8) 2 true else d1
  ((d2.onCore c (fun k => { k.cleared with inReset := true })).dropLeave c).showCoreBusy

/-- RST_CORE, or SOFT_RST in CCTL (R420, R423): dropped while a compute reset or a core reset of it runs. -/
def Dev.rstCore (d : Dev) (c : Nat) : Dev := if d.bit (aRst 0x10C) 0 ∨ (d.core c).inReset then d else d.coreReset c

/-- CORE_RESET_DONE; the cores of a compute reset return with it (R421). -/
def Dev.coreResetDone (d : Dev) (c : Nat) : Dev := if d.bit (aRst 0x10C) 0 then d else (d.onCore c (fun k => { k with inReset := false })).showCoreBusy

/-! ## Floor plan (R18–R22, R47) -/

/-- GLB_FP_SUM. -/
def Dev.fpSum (d : Dev) : Dev :=
  let n (f : Nat → Bool) : Nat := ((List.range 312).filter (fun c => f (d.fpState c))).length
  d.setReg (aFp 0x104) (BitVec.ofNat 32 (n (fun s => s == 0) + n (fun s => s == 1) * 2 ^ 9 + n (fun s => decide (2 ≤ s)) * 2 ^ 18))

/-! ## Core fences (R24–R27, R343) -/

/-- One fence takes effect: the renumbered cores are core-reset and leave their jobs (R24–R26); `stop`: their jobs stop
(R343). -/
def Dev.fenceOne (d : Dev) (stop : Bool) (f : FenceReq) : Dev :=
  let l := d.renumbered f.phys
  let d0 := if stop then l.foldl (fun d x => d.coreJobStop x 0x05) d else d
  let d1 := l.foldl Dev.clearMember d0
  let d2 := d1.fenceRow f.phys
  let d3 := l.foldl (fun d x => if x = f.phys then d.coreReset x else (d.coreReset x).leaveJob x) d2
  ({ d3 with fences := d3.fences.filter (fun g => g.phys != f.phys) } : Dev).owlRecord { kind := 4, phys := f.phys, job := f.job.getD 0 }

/-- Fences in ascending physical ID (R27). -/
def Dev.fenceList (d : Dev) : List FenceReq :=
  (d.fences.foldl (fun l f => setIns l f.phys) []).flatMap (fun c => d.fences.filter (fun f => f.phys == c))

/-- The table published for the current device epoch (R22, R47). -/
def Dev.publishFences (d : Dev) : Dev := ((d.fpSum).setF (aFp 0x108) 15 0 (d.fld (aRst 0x114) 15 0)).publish

/-- May a fence that is due take effect: no core it renumbers is in another job (R343)? -/
def Dev.fenceFree (d : Dev) (f : FenceReq) : Bool :=
  f.due && (d.renumbered f.phys).all (fun x => (d.core x).job.isNone || (d.core x).job == f.job)

/-- CORE_FENCE_APPLY: every fence that is due, at once or since an epoch, in ascending physical ID (R24, R27, R343;
log entry 75). -/
def Dev.coreFenceApply (d : Dev) : Dev :=
  let d1 := d.fenceList.foldl (fun d f => if d.fenceFree f then d.fenceOne false f else d) d
  if d1.fences.length = d.fences.length then d else d1.publishFences

/-- At an epoch the waiting fences whose renumbered cores are all outside any job become due (R343). -/
def Dev.fencesDue (d : Dev) : Dev :=
  { d with fences := d.fences.map (fun f => if (d.renumbered f.phys).all (fun x => (d.core x).job.isNone) then { f with due := true } else f) }

/-- OWL_FORCE_FENCE: every waiting fence at once (R343). -/
def Dev.forceFence (d : Dev) : Dev :=
  if d.fences.isEmpty then d else (d.fenceList.foldl (fun d f => d.fenceOne true f) d).publishFences

/-- CORE_FENCE_REQUEST: FENCE in a core's BLK_CTRL (R343, R424). -/
def Dev.fenceRequest (d : Dev) (c : Nat) : Dev := (d.putB (aCctl c 8) 2 true).askFence c

/-! ## Device epoch (R428) -/

/-- Cores of the epoch request's scope. -/
def Dev.epochCores (d : Dev) : List Nat := match d.epochJob with
  | some n => d.jobCores n
  | none => (d.cores.map (fun p => p.1)).filter (fun c => d.fpState c == 0)

/-- DEVICE_EPOCH_APPLY (R428). -/
def Dev.deviceEpoch (d : Dev) : Dev :=
  let e := d.fld (aRst 0x11C) 15 0
  if d.bit (aRst 0x11C) 31 = false ∨ d.epochCores.any (fun c => !(d.core c).reached e) then d
  else
    let d1 := (devicePages.foldl (fun d b => d.applyPage b e) d).fencesDue
    let d2 := (d1.setF (aRst 0x114) 15 0 e).putB (aRst 0x11C) 31 false
    if d2.bit (aRst 0x11C) 30 then d2.event (aRst 0x11C) 30
    else ((d2.event (aRst 0x11C) 30).putB (aRst 0x11C) 30 true).source (aRst 0) 0 (d2.fld (aGlb 0x100) 10 0)

end Sys2Proof.Machine
end

