-- ==== Sys2Proof/Machine/Squirrel.lean ====
section
/-! DEFINITION. Squirrel's work on pages (12 R353–R358): first-touch copies, the sweep, its budget, merges, rollback and
the rebuild phases. Generations and commits stand in Gate.lean. -/

namespace Sys2Proof.Machine

/-! ## Pages in memory -/

/-- Bytes of a page. -/
def pageSize : Nat := 0x10000

/-- Address of stage page k. -/
def Dev.stageAt (d : Dev) (k : Nat) : Nat :=
  d.fld (aSqr 0x114) 31 16 * 0x10000 + d.fld (aSqr 0x118) 15 0 * 2 ^ 32 + k * pageSize

/-- A page read through its home slices: bytes, and whether a block is poisoned or not served. -/
def Dev.pageRead (d : Dev) (a : Nat) : Dev × List Byte × Bool :=
  (List.range 1024).foldl (fun (s : Dev × List Byte × Bool) i =>
    let (d1, l, p, nak) := s.1.hbmRead (a + 64 * i)
    (d1, s.2.1 ++ l, s.2.2 || p || nak)) (d, [], false)

/-- A page copied block by block with its poison, past the first-touch protection. -/
def Dev.pageCopy (d : Dev) (src dst : Nat) : Dev :=
  (List.range 1024).foldl (fun (d : Dev) i =>
    let (d1, l, p, nak) := d.hbmRead (src + 64 * i)
    d1.hbmPut (dst + 64 * i) l (p || nak)) d

/-- A page zeroed. -/
def Dev.pageZero (d : Dev) (a : Nat) : Dev :=
  (List.range 1024).foldl (fun (d : Dev) i => d.hbmPut (a + 64 * i) (List.replicate 64 0) false) d

/-- A page XORed into another (XOR32 of R242). -/
def Dev.pageXor (d : Dev) (dst src : Nat) : Dev :=
  (List.range 1024).foldl (fun (d : Dev) i =>
    let (d1, l, p, nak) := d.hbmRead (src + 64 * i)
    d1.redPut 7 (dst + 64 * i) l (p || nak)) d

/-- XOR of two runs of bytes. -/
def xorBytes (a b : List Byte) : List Byte := List.zipWith (fun x y => x ^^^ y) a b

/-! ## First touch (R353) -/

/-- A held access is released to its home slice; one without bytes was to be tried again by its own agent. -/
def Dev.release (d : Dev) (w : HeldWrite) : Dev :=
  if w.data.isEmpty then d
  else match w.red with
    | some op => d.redApply op w.addr w.data w.poison
    | none => d.hbmPutPart w.addr w.data w.poison

/-- SQR_FIRST_TOUCH_DONE (R353): the page is in X, TOUCHED, and the held accesses go on in order of arrival. -/
def Dev.firstTouch (d : Dev) (pg : Nat) : Dev :=
  match (if d.sqrCopy.contains pg then (d.sqrPage pg).x else none) with
  | none => d
  | some k =>
    let d1 := d.pageCopy (pg * pageSize) (d.stageAt k)
    let d2 := d1.setSqrPage pg { (d1.sqrPage pg) with touched := true }
    let mine := d.sqrHeld.filter (fun w => w.addr / pageSize == pg)
    let d3 : Dev := { d2 with sqrCopy := d2.sqrCopy.erase pg, sqrHeld := d2.sqrHeld.filter (fun w => w.addr / pageSize != pg) }
    (mine.foldl Dev.release d3).inc (aSqr 0x12C)

/-! ## Budget (R354) -/

/-- Bytes of a die's copy budget in one quantum: CAP / 64 of 0.92 × 19.7 TB/s. -/
def Dev.sqrBudget (d : Dev) : Nat := d.fld (aSqr 0x100) 5 0 * 18124000 / 64

/-- Have first-touch copies alone exceeded a die's budget in the quantum? -/
def Dev.capOver (d : Dev) : Bool := [0, 1].any (fun die => decide (d.sqrBudget < d.sqrFt.getD die 0))

/-- SQR_BUDGET_QUANTUM: 1 µs, 1,900 cycles at 1.9 GHz. -/
def Dev.sqrQuantum (d : Dev) : Dev :=
  if d.cycle < d.sqrQ + 1900 then d
  else
    let d1 := if d.capOver then (d.inc (aSqr 0x134)).raise (aSqr 0) 1 else d
    { d1 with sqrUsed := [], sqrFt := [], sqrQ := d.cycle }

/-! ## Parity groups (R355) -/

/-- Rank of a member of a job's parity group (R360). -/
def Dev.memberRank (d : Dev) (n m : Nat) : Nat := d.fld (aSqr (0x600 + 16 * n + 4 * (m / 2))) (16 * (m % 2) + 15) (16 * (m % 2))

/-- The device's own member index. -/
def Dev.ownIndex (d : Dev) (n : Nat) : Option Nat := (List.range 8).find? (fun m => d.memberRank n m == d.selfRank n)

/-- Parity pages of an entry. -/
def SqrEntry.parPages (e : SqrEntry) : Nat := (e.pages + 6) / 7

/-- Address of page k of bank A and of bank D. -/
def SqrEntry.bankA (e : SqrEntry) (k : Nat) : Nat := e.paddr + k * pageSize
def SqrEntry.bankD (e : SqrEntry) (k : Nat) : Nat := e.paddr + (e.parPages + k) * pageSize

/-- Page that member m has in parity page k of holder h. -/
def stripePage (m h k : Nat) : Nat := 7 * k + (m + 15 - h) % 8

/-- Holder of page q of member m. -/
def holderOf (m q : Nat) : Nat := (m + 15 - q % 7) % 8

/-- May any member of the group have the entry in its parity: METHOD is each member's own, so a holder keeps its banks
for every entry that R351 lets be PARITY (R355). -/
def SqrEntry.inParity (e : SqrEntry) : Bool := e.req != 1 && decide (4096 ≤ e.pages)

/-! ## Sweep (R353) -/

/-- The entry that page number pg belongs to. -/
def Dev.entryOf (d : Dev) (pg : Nat) : Option SqrEntry := d.sqrFind (pg * pageSize)

/-- V of a page: X when TOUCHED, else the page. -/
def Dev.pageV (d : Dev) (pg : Nat) : Nat := match (d.sqrPage pg).touched, (d.sqrPage pg).x with
  | true, some k => d.stageAt k
  | _, _ => pg * pageSize

/-- A parity send of page q of an entry: bytes XORed into its holder's D. -/
def Dev.parSend (d : Dev) (e : SqrEntry) (q : Nat) (l : List Byte) (p : Bool) : List HwSend :=
  match d.ownIndex e.job with
  | none => []
  | some m => [{ job := e.job, rank := d.memberRank e.job (holderOf m q), addr := e.bankD (q / 7), op := some 7, data := l, poison := p, gen := true }]

/-- What the sweep sends of a page: a MIRROR copy, a PARITY delta, or both when the entry has left the parity. The value
that leaves it is O, or the page itself where it has no O (log entry 71). -/
def Dev.sweepSends (d : Dev) (e : SqrEntry) (pg : Nat) : Dev × List HwSend :=
  let q := pg - e.addr / pageSize
  let (d1, v, vp) := d.pageRead (d.pageV pg)
  let (d2, o, op) := match (d.sqrPage pg).o with
    | some k => d1.pageRead (d.stageAt k)
    | none => (d1, [], false)
  if e.method = 2 then
    if o.isEmpty ∨ d.sqrOld.getD e.i 0 ≠ 2 then (d2, d.parSend e q v vp) else (d2, d.parSend e q (xorBytes v o) (vp || op))
  else
    let g := (d.sqrJob e.job).gen % 2
    let mir : HwSend := { job := e.job, rank := e.mrank, addr := e.maddr + g * e.pages * pageSize + q * pageSize, data := v, poison := vp, gen := true }
    (d2, mir :: (if d.sqrOld.getD e.i 0 = 2 then (if o.isEmpty then d.parSend e q v vp else d.parSend e q o op) else []))

/-- SQR_SWEEP_SEND: the sweep reaches a page with SEND set while the budget allows (R353, R354). -/
def Dev.sweep (d : Dev) (pg : Nat) : Dev :=
  match d.entryOf pg with
  | none => d
  | some e =>
    if (d.sqrPage pg).send = false ∨ (d.sqrJob e.job).st ≠ .running ∨ d.sqrBudget < d.sqrUsed.getD (d.pageDie pg) 0 + pageSize
        ∨ d.sqrCopy.contains pg then d
    else
      let (d1, l) := d.sweepSends e pg
      let d2 := d1.setSqrPage pg { (d1.sqrPage pg) with send := false }
      let j := d2.sqrJob e.job
      ({ (d2.setSqrJob e.job { j with unacked := j.unacked + l.length }) with
          hwSends := d2.hwSends ++ l, sqrUsed := d2.sqrCharge d2.sqrUsed pg } : Dev).inc (aSqr 0x130)

/-! ## Merge (R352, R355) -/

/-- Bank D of the holder merged into bank A, or taken as A after a base generation; then D is zero. -/
def Dev.mergeEntry (d : Dev) (base : Bool) (e : SqrEntry) : Dev :=
  if (d.ownIndex e.job).isNone ∨ e.inParity = false then d
  else (List.range e.parPages).foldl (fun d k =>
    (if base then d.pageCopy (e.bankD k) (e.bankA k) else d.pageXor (e.bankA k) (e.bankD k)).pageZero (e.bankD k)) d

/-- The merge of every entry of a job. -/
def Dev.mergeJob (d : Dev) (n : Nat) : Dev := (d.jobEntries n).foldl (fun d e => d.mergeEntry (d.sqrJob n).base e) d

/-- SQR_MERGE_DONE (R352, R355). LOST stays where a copy failed after the commit (R356, log entry 138). -/
def Dev.mergeDone (d : Dev) (n : Nat) : Dev :=
  if (d.sqrJob n).st = .merging then
    let d1 := d.mergeJob n
    d1.setSqrJob n { (d1.sqrJob n) with st := .idle, lost := (d1.sqrJob n).again, again := false }
  else d

/-! ## SQR_CTRL -/

/-- A command that breaks R357 or R358 (R360). -/
def Dev.sqrBad (d : Dev) : Dev := d.raise (aSqr 0) 2

/-- REBUILD_DONE is cleared by the next SQR_CTRL (R360). -/
def Dev.sqrCtrl (d : Dev) (n : Nat) : Dev := d.setSqrJob n { (d.sqrJob n) with done := false }

/-- SQR_START (R352). -/
def Dev.sqrStart (d : Dev) (n : Nat) : Dev :=
  let d1 := d.sqrCtrl n
  if d1.sqrOn n then d1.setSqrJob n { (d1.sqrJob n) with startPend := true } else d1

/-- Has a core of the job a stream RUNNING? -/
def Dev.jobRuns (d : Dev) (n : Nat) : Bool := (d.jobCores n).any (fun c => (d.core c).x.st == .running || (d.core c).a.st == .running)

/-- T and the lost member's index (R360). -/
def Dev.sqrT (d : Dev) : Nat := d.fld (aSqr 0x124) 15 0
def Dev.sqrLost (d : Dev) : Nat := d.fld (aSqr 0x124) 18 16

/-- Stage page that holds version T of a page; `none`: the page itself (R357). -/
def SqrPage.version (p : SqrPage) (useO : Bool) : Option Nat :=
  match useO, p.o with
  | true, some k => some k
  | _, _ => if p.touched then p.x else none

/-- A page goes back to version T; X and O are freed (R353, R357). The X of a page whose first-touch copy runs stays: the
copy goes on, and the writes held for it are released after it. -/
def Dev.pageBack (d : Dev) (useO : Bool) (pg : Nat) : Dev :=
  let p := d.sqrPage pg
  let d1 := match p.version useO with
    | some k => d.pageCopy (d.stageAt k) (pg * pageSize)
    | none => d
  if d.sqrCopy.contains pg then (d1.freeStages p.o.toList).setSqrPage pg { x := p.x }
  else (d1.freeStages (p.x.toList ++ p.o.toList)).setSqrPage pg {}

/-- Holders drop D (R357). -/
def Dev.dropD (d : Dev) (n : Nat) : Dev :=
  (d.jobEntries n).foldl (fun d e =>
    if (d.ownIndex n).isNone ∨ e.inParity = false then d
    else (List.range e.parPages).foldl (fun d k => d.pageZero (e.bankD k)) d) d

/-- Can the device not restore version T: LOST, and T is not the committed base generation that answers it (R356)? -/
def SqrJob.cannot (j : SqrJob) (t : Nat) : Bool :=
  j.lost && !(j.base && !j.again && (j.st == .committed || j.st == .merging) && decide (t = j.com))

/-- SQR_ROLLBACK (R357). In MERGING the merge under way is completed first (log entry 72). -/
def Dev.sqrRollback (d : Dev) (n : Nat) : Dev :=
  let d0 := d.sqrCtrl n
  let j := d0.sqrJob n
  let t := d0.sqrT
  let prev : Bool := j.st == .committed && decide (t = (j.com + 65535) % 65536) && decide (t ≠ j.com)
  if d0.sqrOn n = false ∨ d0.jobRuns n ∨ j.cannot t ∨ j.phase ≠ 0 ∨ (t ≠ j.com ∧ prev = false) then d0.sqrBad
  else
    let pgs := (d0.jobEntries n).flatMap SqrEntry.pageNos
    let d1 := if (j.st = .committed ∧ prev = false) ∨ j.st = .merging then d0.mergeJob n else d0.dropD n
    let d2 := pgs.foldl (fun d pg => d.pageBack (prev || j.st == .running) pg) d1
    let d3 : Dev := { d2 with hwSends := d2.hwSends.filter (fun h => !(h.gen && h.job == n)) }
    let d4 := d3.onFab (fun f => { f with sends := f.sends.map (fun p => (p.1, if p.2.hw && p.2.job == n then { p.2 with gen := false } else p.2)) })
    d4.setSqrJob n { j with st := .idle, com := t, next := none, unacked := 0, stuck := false, phase := 2, arg := t,
                            lost := false, again := false }

/-- May a rebuild phase start: the job is IDLE, at T unless the device is the spare, and the device has an index in its
group (R358)? Gives the index. -/
def Dev.phaseOk (d : Dev) (n : Nat) : Option Nat :=
  let j := d.sqrJob n
  if d.sqrOn n ∧ j.st = .idle ∧ j.phase = 0 ∧ (j.com = d.sqrT ∨ d.ownIndex n = some d.sqrLost) then d.ownIndex n else none

/-- A rebuild phase: its number, and its work on the PARITY entries and, for the spare, the MIRROR entries. -/
def Dev.phase (d : Dev) (n ph : Nat) (work : Nat → Dev → Dev) : Dev :=
  let d0 := d.sqrCtrl n
  match d0.phaseOk n with
  | none => d0.sqrBad
  | some m => (fun e : Dev => e.setSqrJob n { (e.sqrJob n) with phase := ph, arg := d0.sqrT }) (work m d0)

/-- The job's entries of a method: while a member is rebuilt METHOD holds the lost member's methods, as the runtime reads
them from its method record (R358, log entry 139). -/
def Dev.entriesBy (d : Dev) (n m : Nat) : List SqrEntry := (d.jobEntries n).filter (fun e => e.method == m)

/-- SQR_PREPARE (R358): D = A at the holders. -/
def Dev.prepare (d : Dev) (n : Nat) : Dev :=
  d.phase n 3 (fun m d =>
    if m = d.sqrLost then d
    else (d.entriesBy n 2).foldl (fun d e => (List.range e.parPages).foldl (fun d k => d.pageCopy (e.bankA k) (e.bankD k)) d) d)

/-- One page of the device sent to a member: XORed into a bank there. -/
def Dev.sendPage (d : Dev) (n rank src dst : Nat) (op : Option Nat) : Dev :=
  let (d1, l, p) := d.pageRead src
  { d1 with hwSends := d1.hwSends ++ [{ job := n, rank := rank, addr := dst, op := op, data := l, poison := p }] }

/-- The pages of a survivor in the stripes of holder h, XORed into a bank of it. -/
def Dev.pushTo (d : Dev) (n m h : Nat) (bank : SqrEntry → Nat → Nat) : Dev :=
  (d.entriesBy n 2).foldl (fun d e => (List.range e.parPages).foldl (fun d k =>
    if stripePage m h k < e.pages then d.sendPage n (d.memberRank n h) (e.addr + stripePage m h k * pageSize) (bank e k) (some 7) else d) d) d

/-- SQR_PUSH (R358): every survivor but the page's holder. -/
def Dev.push (d : Dev) (n : Nat) : Dev :=
  d.phase n 4 (fun m d =>
    if m = d.sqrLost then d
    else ((List.range 8).filter (fun h => h != m && h != d.sqrLost)).foldl (fun d h => d.pushTo n m h SqrEntry.bankD) d)

/-- Holders' part of SEND: D to the spare, then zero. -/
def Dev.sendD (d : Dev) (n m : Nat) : Dev :=
  let x := d.sqrLost
  (d.entriesBy n 2).foldl (fun d e => (List.range e.parPages).foldl (fun d k =>
    (if stripePage x m k < e.pages then d.sendPage n (d.memberRank n x) (e.bankD k) (e.addr + stripePage x m k * pageSize) none else d).pageZero
      (e.bankD k)) d) d

/-- The spare's part of SEND: every MIRROR entry from its buffer; its committed generation is T from then on (log entry
139). -/
def Dev.getMirrors (d : Dev) (n : Nat) : Dev :=
  { (d.setSqrJob n { (d.sqrJob n) with com := d.sqrT }) with hwSends := d.hwSends ++ (d.entriesBy n 1).map (fun e =>
      { job := n, rank := e.mrank, addr := e.maddr + d.sqrT % 2 * e.pages * pageSize, data := [], get := some (e.addr, e.pages * pageSize) }) }

/-- SQR_SEND (R358). -/
def Dev.sqrSend (d : Dev) (n : Nat) : Dev := d.phase n 5 (fun m d => if m = d.sqrLost then d.getMirrors n else d.sendD n m)

/-- SQR_REPARITY (R358). -/
def Dev.reparity (d : Dev) (n : Nat) : Dev :=
  d.phase n 6 (fun m d =>
    if m = d.sqrLost then (d.entriesBy n 2).foldl (fun d e => (List.range e.parPages).foldl (fun d k => d.pageZero (e.bankA k)) d) d
    else d.pushTo n m d.sqrLost SqrEntry.bankA)

/-- SQR_PHASE_DONE: no send of the phase is outstanding; REBUILD_DONE for a rebuild phase, which ROLLBACK is not (R358,
R360). -/
def Dev.phaseDone (d : Dev) (n : Nat) : Dev :=
  let j := d.sqrJob n
  if j.phase = 0 ∨ d.hwSends.any (fun h => h.job == n && !h.gen) ∨ d.fab.sends.any (fun p => p.2.hw && p.2.job == n && !p.2.gen && !p.2.ended) then d
  else d.setSqrJob n { j with phase := 0, done := decide (j.phase ≠ 2) }


end Sys2Proof.Machine
end

