-- ==== Sys2Proof/Machine/OwlOps.lean ====
section
/-! DEFINITION. The Owl (12 R346–R349, R359). -/

namespace Sys2Proof.Machine

/-- OWL_JOB_STOP (R346). -/
def Dev.owlStop (d : Dev) (n code : Nat) : Dev := if code < 0x16 then d.jobStop n code 0x1FF else d

/-- Accumulator of an event input after an interval (R347). -/
def accNext (acc e : Nat) : Nat := min (acc - (acc + 15) / 16 + 256 * e) 0xFFFFFFFF

/-- Is an input a level (R347)? -/
def owlLevel (k : Nat) : Bool := k == 2 || k == 7

/-- Level of LINE_DEG and TEMP: stacks with a degraded line recorded, hottest sensor in °C. -/
def Dev.owlLevelOf (d : Dev) (k : Nat) : Nat :=
  if k = 2 then ((List.range 16).filter (fun i => d.bit (aHmc i 0x118) 31)).length
  else (d.stackT.map (fun p => p.2.temp)).foldl max d.owl.die

/-- Points of an input, from its accumulator or level (R347). -/
def Dev.owlPoints (d : Dev) (k acc : Nat) : Nat :=
  let r := aOwl (0x140 + 4 * k)
  if d.bit r 31 = false then 0
  else if owlLevel k then min (d.fld r 23 16) ((d.owlLevelOf k - d.fld r 30 24) * d.fld r 15 0 / 16)
  else min (d.fld r 23 16) (acc * d.fld r 15 0 / 65536)

/-- The comparison with SNAP_LO (R348). -/
def Dev.owlLow (d : Dev) : Dev :=
  let t := d.fld (aOwl 0x104) 7 0
  if t ≤ d.owl.score then
    if d.owl.loArmed then
      ((({ d with owl := { d.owl with loArmed := false } } : Dev).owlRecord { kind := 2 }).inc (aOwl 0x128)).raise (aOwl 0) 0
    else d
  else if d.owl.score + d.fld (aOwl 0x104) 15 8 < t then { d with owl := { d.owl with loArmed := true } } else d

/-- The comparison with SNAP_HI (R348). -/
def Dev.owlHigh (d : Dev) : Dev :=
  let t := d.fld (aOwl 0x104) 23 16
  if t ≤ d.owl.score then
    if d.owl.hiArmed then
      (({ d with owl := { d.owl with hiArmed := false, spare := true } } : Dev).owlRecord { kind := 3 }).raise (aOwl 0) 1
    else d
  else if d.owl.score + d.fld (aOwl 0x104) 15 8 < t then { d with owl := { d.owl with hiArmed := true } } else d

/-- OWL_PTS_k. -/
def Dev.showOwl (d : Dev) (pts : List Nat) : Dev :=
  pts.zipIdx.foldl (fun d p => d.setReg (aOwl (0x180 + 4 * p.2)) (BitVec.ofNat 32 p.1)) d

/-- OWL_INTERVAL (R347, R348). -/
def Dev.owlInterval (d : Dev) : Dev :=
  if d.tick % 15625 ≠ 0 ∨ d.tick ≤ d.owl.ended then d
  else
    let on := d.bit (aOwl 0x100) 31
    let accs := (List.range 9).map (fun k =>
      if owlLevel k then 0 else if on then accNext (d.owl.acc.getD k 0) (d.owl.ev.getD k 0) else d.owl.acc.getD k 0)
    let pts := accs.zipIdx.map (fun p => if on then d.owlPoints p.2 p.1 else 0)
    let score := min 255 (pts.foldl (fun a b => a + b) 0)
    let d1 : Dev := { d with owl := { d.owl with
      acc := accs.zipIdx.foldl (fun t p => Tbl.store 0 t p.2 p.1) [], ev := [], score := score, peak := max d.owl.peak score, ended := d.tick } }
    (d1.owlLow.owlHigh).showOwl pts

/-- OWL_CLR_SPARE (R348). -/
def Dev.clrSpare (d : Dev) : Dev := { d with owl := { d.owl with spare := false } }

/-- OWL_FORCE_SNAP: SNAP_REQ for one decision of every job (R348, R359). -/
def Dev.forceSnap (d : Dev) : Dev := { d with owl := { d.owl with force := List.range 64 } }

/-- The event ring restarts at index 0 (R349). -/
def Dev.owlRestart (d : Dev) : Dev := ({ d with owl := { d.owl with idx := 0, ahead := 0 } } : Dev).setReg (aOwl 0x124) 0

/-- A write of OWL_LOG_HEAD. -/
def Dev.owlHead (d : Dev) (h : Nat) : Dev := { d with owl := { d.owl with ahead := aheadOf d.owl.idx h d.owlSize } }

/-- Is ALERT_N driven low (R348)? -/
def Dev.alertLow (d : Dev) : Bool := d.owl.spare && d.bit (aOwl 0x100) 30

end Sys2Proof.Machine
end

