-- ==== Sys2Proof/Machine/Command.lean ====
section
/-! DEFINITION. Command streams (13 R369–R398): submission queues, acceptance, the journal, long operations, jobs and
the frame calendar. -/

namespace Sys2Proof.Machine

/-! ## Submission queues (R369–R371) -/

/-- How a read of host memory by the device ends: as the link serves it, with status UR or CA, or with its completion
timeout (R366). -/
inductive HostEnd where
  | served | urCa | timeout
  deriving DecidableEq, Repr

/-- A failed host read counted (R366, R399); a completion timeout is AER's bit 14. -/
def Dev.hostEnd (d : Dev) (e : HostEnd) : Dev :=
  match e with
  | .served => d
  | .urCa => (d.inc (aHif 0x118)).raise (aHif 0) 3
  | .timeout => ((d.inc (aHif 0x114)).raise (aHif 0) 2).aerError 14

/-- A queue. -/
def Dev.sq (d : Dev) (q : Nat) : SubQ := d.cb.sqs.getD q {}

/-- Number of a queue state (R400). -/
def SqState.code : SqState → Nat
  | .idle => 0 | .active => 1 | .stalled => 2 | .error => 3

/-- A queue replaced, with STATE, ERR_CODE and PTR as it stands. -/
def Dev.putSq (d : Dev) (q : Nat) (s : SubQ) : Dev :=
  ({ d with cb := { d.cb with sqs := d.cb.sqs.store {} q s } }.setF (aSq q 8) 10 0 (s.st.code * 256 + s.err)).setReg
    (aSq q 0xC) (BitVec.ofNat 32 (65536 * s.tail + s.head))

/-- Commands of a queue's ring; a LOG2 not yet written counts as 4 (R400). -/
def Dev.sqSize (d : Dev) (q : Nat) : Nat := 2 ^ max 4 (d.fld (aSq q 8) 20 16)

/-- The queue enters ERROR with a code; one already there keeps its first code, or of those of one cycle the lowest (R15,
R371). -/
def Dev.sqError (d : Dev) (q code : Nat) : Dev :=
  let s := d.sq q
  let keep : Bool := s.st == .error && !(s.errCyc == d.cycle && decide (code < s.err))
  (if keep then d else d.putSq q { s with st := .error, err := code, errCyc := d.cycle }).raise (aCmd 0) 1

/-- SQ_DOORBELL: a write of offset 0 of BAR4 page q (R370); a poisoned write is discarded (R365). -/
def Dev.sqDoorbell (d : Dev) (q v : Nat) (ep : Bool) : Dev :=
  if ep then d.poisonRx
  else if d.sqSize q ≤ v then d.sqError q 0x03
  else d.putSq q { (d.sq q) with tail := v }

/-- SQ_EN_WRITE (R369, R371). -/
def Dev.sqEnWrite (d : Dev) (q : Nat) (en : Bool) : Dev :=
  let d1 := d.putB (aSq q 8) 31 en
  let s := d1.sq q
  if en then (if s.st = .idle then d1.putSq q { s with st := .active } else d1) else d1.putSq q { s with st := .idle, err := 0 }

/-- Does the block take commands: the journal in use, no pause, no scan, no reset (R385, R387, R400)? -/
def Dev.cmdTakes (d : Dev) : Bool :=
  d.bit (aCmd 0x104) 31 && !d.cb.scanning && !d.cb.paused && !d.cb.zeroing && !d.cb.copying && !d.bit (aRst 0x10C) 0

/-- Address of the command at index i of a queue's ring, and whether it is in host memory. -/
def Dev.sqAt (d : Dev) (q i : Nat) : Nat := d.fld (aSq q 0) 31 12 * 4096 + (d.reg (aSq q 4)).toNat * 2 ^ 32 + 64 * i
def Dev.sqHost (d : Dev) (q : Nat) : Bool := d.bit (aSq q 0) 0

/-- The 64 bytes of a command read: data, poison, failure (R366, R371). -/
def Dev.sqRead (d : Dev) (q : Nat) (e : HostEnd) : Dev × List Byte × Bool × Bool :=
  let a := d.sqAt q (d.sq q).head
  if d.sqHost q then
    if e ≠ .served then (d.hostEnd e, [], false, true)
    else
      let (d1, l, p, ok) := d.hostGet a 64
      (d1, l, p, !ok)
  else
    let (d1, g) := d.devRead 0 none a
    (d1, g.data, g.poison, g.refused && !g.poison)

/-! ## The stream cache (R384, R387) -/

/-- Read of a stream's entry in one copy: readable, poisoned or uncorrectable, or on a held stack. -/
inductive CopyRead where
  | good | bad | gone
  deriving DecidableEq, Repr

/-- A read of copy i. -/
def Dev.jrnRead (d : Dev) (i s : Nat) : Dev × CopyRead × Nat :=
  let pa := d.jrnBase i + 64 * s
  if !d.jrnOk i then (d, .gone, 0)
  else if (d.stack (keyStack (d.hbmKey pa))).held then (d.jrnDegrade i, .gone, 0)
  else
    let (d1, data, p, nak) := d.hbmRead pa
    (d1, (if p || nak then .bad else .good), ofBytesLE data)

/-- The journal entry of a stream: copy 0, or copy 1 when copy 0 is poisoned; `none` when both are bad. -/
def Dev.jrnGet (d : Dev) (s : Nat) : Dev × Option Nat :=
  let (d1, r0, w0) := d.jrnRead 0 s
  if r0 = .good then (d1, some w0)
  else
    let (d2, r1, w1) := d1.jrnRead 1 s
    if r1 = .good then ((if r0 = .bad then d2.jrnDegrade 0 else d2), some w1) else (d2, none)

/-- Use of a stream's entry: a miss reads the journal (R384); the Bool says that it was uncorrectable in both
copies (R387). -/
def Dev.streamUse (d : Dev) (s : Nat) : Dev × Bool :=
  if d.cb.cached.contains s then
    ({ d with cb := { d.cb with cached := s :: d.cb.cached.filter (fun k => k != s) } }, false)
  else
    let (d1, w) := (d.inc (aCmd 0x138)).jrnGet s
    match w with
    | some _ => ({ d1 with cb := { d1.cb with cached := (s :: d1.cb.cached).take 16384 } }, false)
    | none => (d1.raise (aCmd 0) 4, true)

/-! ## Checks (R373, R374) -/

/-- Does the record's address make it unusable (R374)? -/
def cplBad (c : Nat) : Bool := !cmdCplHost c && decide (hbmEnd ≤ cmdCpl c)

/-- Is a non-zero bit set in an argument that the opcode does not use? -/
def argBad (c : Nat) : Bool :=
  let m0 := if cmdOp c = 0 then 0 else if cmdOp c = 1 then 0xFFFFFFFFFFC0 else 0xFFFFF
  let m1 := if cmdOp c ≤ 1 then 0 else 0xFFFFFFFF
  decide (cmdArg c 0 &&& m0 ≠ cmdArg c 0) || decide (cmdArg c 1 &&& m1 ≠ cmdArg c 1) || decide (bitsN c 511 320 ≠ 0)

/-- REASON 1, ENCODING. -/
def Dev.cmdEncBad (d : Dev) (c : Nat) : Bool :=
  decide (6 < cmdOp c) || bitN c 8 || decide (bitsN c 69 65 ≠ 0) || decide (bitsN c 191 139 ≠ 0) || argBad c
    || decide (cmdSeq c = 0) || (bitN c 10 && (d.calOf (cmdStream c)).isNone) || cplBad c

/-- REASON 2, JOB. -/
def Dev.cmdJobBad (d : Dev) (c job : Nat) : Bool :=
  !d.bit (aCmdJ job 0) 31 || (match (d.strm (cmdStream c)).job with
    | some n => n != job
    | none => false)

/-- REASON 3, TARGET. A WAIT is no control command (R379), and may name any sequence. -/
def Dev.cmdTargetBad (d : Dev) (c job : Nat) : Bool :=
  let t := d.strm (cmdArg c 0)
  if cmdOp c = 1 then decide (hbmEnd ≤ cmdArg c 0)
  else if cmdOp c < 3 then false
  else t.job != some job || t.last != cmdArg c 1 || (cmdOp c == 6 && (!t.st.terminal || t.released))

/-- A refusal (R374): counted and recorded; a command whose record is unusable gets no word. -/
def Dev.refuse (d : Dev) (c reason : Nat) : Dev :=
  let d1 := (((d.inc (aCmd 0x130)).setReg (aCmd 0x140) (BitVec.ofNat 32 (2 ^ 24 * reason + cmdStream c))).setReg
    (aCmd 0x144) (BitVec.ofNat 32 (cmdSeq c))).raise (aCmd 0) 0
  if cplBad c then d1 else d1.ack c reason 0xF 0x03

/-! ## Sequence numbers (R377, R378) -/

/-- The successor of a sequence number. -/
def seqSucc (s : Nat) : Nat := if s = 0xFFFFFFFF then 1 else s + 1

/-- Successor steps from sequence L to n. -/
def seqDist (l n : Nat) : Nat := if l < n then n - l else n + 0xFFFFFFFF - l

/-- Classes of a sequence number. -/
inductive SeqClass where
  | next | dupLast | gap | dupOld
  deriving DecidableEq, Repr

/-- The table of R378. -/
def seqClass (bound : Bool) (l n : Nat) : SeqClass :=
  let dd := (n + 2 ^ 32 - l) % 2 ^ 32
  if n = seqSucc l then .next
  else if n = l ∧ bound then .dupLast
  else if (bound = false ∧ n ≠ 1) ∨ (2 ≤ dd ∧ dd < 2 ^ 31) then .gap
  else .dupOld

/-- May a NEXT command be accepted (R379)? -/
def CmdStream.takes (r : CmdStream) (c : Nat) : Bool := r.released || (r.st.terminal && bitN c 9)

/-! ## Launch descriptors (R390) -/

/-- One entry of a launch descriptor. -/
def launchEntry (w : Nat) : LaunchCore :=
  { phys := 0x1FF, lcore := bitsN w 56 48, xBase := bitsN w 47 0, aBase := bitsN w 111 64, xLen := bitsN w 147 128,
    aLen := bitsN w 179 160, cmem := bitN w 192, ctx := bitsN w 239 204 * 4096 }

/-- Is an entry malformed: a reserved bit, an unaligned base? -/
def launchBad (w : Nat) : Bool :=
  decide (bitsN w 63 57 ≠ 0) || decide (bitsN w 127 112 ≠ 0) || decide (bitsN w 159 148 ≠ 0) || decide (bitsN w 191 180 ≠ 0)
    || decide (bitsN w 203 193 ≠ 0) || decide (bitsN w 255 240 ≠ 0) || decide (bitsN w 5 0 ≠ 0) || decide (bitsN w 69 64 ≠ 0)

/-- Has a list of numbers one twice? -/
def hasTwice : List Nat → Bool
  | [] => false
  | x :: t => t.contains x || hasTwice t

/-- The descriptor read: the cores, and the STATUS of a RUN that fails, 0 for none. -/
def Dev.readLaunch (d : Dev) (pa : Nat) : Dev × List LaunchCore × Nat :=
  let (d1, h) := d.devReadN 0 none pa 64
  let n := ofBytesLE (h.data.take 2)
  if h.poison then (d1, [], 0x01)
  else if n = 0 ∨ 288 < n ∨ ofBytesLE (h.data.drop 2) ≠ 0 then (d1, [], 0x03)
  else
    let (d2, g) := d1.devReadN 0 none (pa + 64) (32 * n)
    let ws := (chunksOf 32 g.data).map ofBytesLE
    let es := ws.map launchEntry
    if g.poison then (d2, [], 0x01)
    else if ws.any launchBad || hasTwice (es.map (fun e => e.lcore)) || es.any (fun e => (d.physOf e.lcore).isNone) then (d2, [], 0x03)
    else (d2, es, 0)

/-- A RUN becomes QUEUED: the descriptor is read. -/
def Dev.runQueued (d : Dev) (s : Nat) : Dev :=
  let r := d.strm s
  let (d1, cs, e) := d.readLaunch (cmdArg r.cmd 0)
  let d2 := (d1.setStrm s { r with st := .queued, cores := cs, launchErr := e }).journal s
  if e = 0 then d2 else d2.finish s .failed e 0x1FF 0

/-! ## Control commands on their targets (R392) -/

/-- Cores that a RUN holds (R391). -/
def CmdStream.holds (r : CmdStream) : List Nat :=
  if cmdOp r.cmd = 1 ∧ (r.st = .running ∨ r.st = .suspending ∨ r.st = .cancelling) then r.cores.map (fun c => c.phys) else []

/-- SAVE on one core of a suspending RUN. -/
def Dev.saveCore (d : Dev) (l : LaunchCore) : Dev :=
  let c := l.phys
  ((((d.setReg (aCctl c 0x118) (BitVec.ofNat 32 l.ctx)).setReg (aCctl c 0x11C) (BitVec.ofNat 32 (l.ctx / 2 ^ 32))).setReg
    (aCctl c 0x120) (BitVec.ofNat 32 (l.ctx + 0x200000))).setReg (aCctl c 0x124) (BitVec.ofNat 32 ((l.ctx + 0x200000) / 2 ^ 32 % 65536))).ctxSave c l.cmem

/-- A stream's command moves to a state, with its journal entry. -/
def Dev.moveTo (d : Dev) (s : Nat) (st : CmdState) : Dev := (d.setStrm s { (d.strm s) with st := st }).journal s

/-- SUSPEND. -/
def Dev.suspendTarget (d : Dev) (t : Nat) : Dev :=
  let r := d.strm t
  if cmdOp r.cmd ≠ 1 then d
  else match r.st with
    | .queued => d.moveTo t .suspended
    | .running => (r.cores.foldl Dev.saveCore d).moveTo t .suspending
    | _ => d

/-- RESUME. -/
def Dev.resumeTarget (d : Dev) (t : Nat) : Dev :=
  let r := d.strm t
  match r.st with
  | .suspended => d.runQueued t
  | .suspending => (d.setStrm t { r with pendResume := true }).journal t
  | _ => d

/-- CANCEL; a QUEUED command of any opcode is cancelled. -/
def Dev.cancelTarget (d : Dev) (t : Nat) : Dev :=
  let r := d.strm t
  match r.st with
  | .queued | .suspended => d.finish t .cancelled 0x11 0x1FF 0
  | .running => ((r.cores.map (fun c => c.phys)).foldl Dev.coreReset d).moveTo t .cancelling
  | .suspending => (d.setStrm t { r with pendCancel := true }).journal t
  | _ => d

/-- RELEASE. -/
def Dev.releaseTarget (d : Dev) (t : Nat) : Dev := (d.setStrm t { (d.strm t) with released := true }).journal t

/-! ## Acceptance (R376, R379) -/

/-- What a target's outcome is when a command that waits for it is accepted: terminal now, or 0xF when its stream has
accepted a later sequence (R373, R375). -/
def CmdStream.outcome (t : CmdStream) (seq : Nat) : Option (Nat × Nat) :=
  let dd := (t.last + 2 ^ 32 - seq) % 2 ^ 32
  if t.job.isNone then none
  else if t.last = seq then (if t.st.terminal then some (t.st.code, t.status) else none)
  else if 1 ≤ dd ∧ dd < 2 ^ 31 then some (0xF, 0)
  else none

/-- What an accepted command does at once. -/
def Dev.startCmd (d : Dev) (c : Nat) : Dev :=
  let s := cmdStream c
  let t := cmdArg c 0 % 2 ^ 20
  match cmdOp c with
  | 0 => d.finish s .done 0 0x1FF 0
  | 1 => d.runQueued s
  | 2 => d
  | 3 => d.suspendTarget t
  | 4 => d.resumeTarget t
  | 5 => d.cancelTarget t
  | _ => (d.releaseTarget t).finish s .done 0 0x1FF (d.strm t).st.code

/-- The stream's record of a newly accepted command. -/
def Dev.newCmd (d : Dev) (c job : Nat) : CmdStream :=
  { job := some job, last := cmdSeq c, cmd := c, st := .queued, released := false,
    out := if 2 ≤ cmdOp c then (d.strm (cmdArg c 0 % 2 ^ 20)).outcome (cmdArg c 1 % 2 ^ 32) else none }

/-- A command that would be accepted: REASON 2 again, REASON 3, then acceptance. -/
def Dev.accept (d : Dev) (c job : Nat) : Dev :=
  if d.cmdJobBad c job then d.refuse c 2
  else if d.cmdTargetBad c job then d.refuse c 3
  else
    let s := cmdStream c
    let d1 := ((d.setStrm s (d.newCmd c job)).incWrap (aCmd 0x120)).setF (aCmdJ job 4) 23 0 (d.fld (aCmdJ job 4) 23 0 + 1)
    ((d1.journal s).ack c 0 0 0).startCmd c

/-! ## Holding (R378, R381) -/

/-- CMD_HOLD_USE. -/
def Dev.setHold (d : Dev) (l : List HeldCmd) : Dev :=
  ({ d with cb := { d.cb with hold := l } }).setReg (aCmd 0x134) (BitVec.ofNat 32 l.length)

/-- Is a held command a gap? -/
def Dev.isGap (d : Dev) (h : HeldCmd) : Bool :=
  let l := (d.strm h.stream).last
  decide ((d.cb.hold.filter (fun x => x.stream == h.stream && decide (seqDist l x.seq < seqDist l h.seq))).length + 1 < seqDist l h.seq)

/-- The time of held gaps that an always-on tick takes. -/
def Dev.gapTick (d : Dev) : Dev :=
  { d with cb := { d.cb with hold := d.cb.hold.map (fun h => if d.isGap h then { h with left := h.left - 1 } else h) } }

/-- Must a command be held: what that does, `none` when its queue must stop (R381). -/
def Dev.holdCmd (d : Dev) (c job : Nat) : Option Dev :=
  let s := cmdStream c
  if d.cb.hold.any (fun h => h.stream == s && h.seq == cmdSeq c) then some (d.inc (aCmd 0x128))
  else if 8192 ≤ d.cb.hold.length ∨ 8 ≤ (d.cb.hold.filter (fun h => h.stream == s)).length then none
  else some (d.setHold (d.cb.hold ++ [⟨s, cmdSeq c, c, job, d.fld (aCmd 0x11C) 15 0⟩]))

/-! ## CMD_FETCH -/

/-- A DUP_LAST command (R380). -/
def Dev.dupLast (d : Dev) (c : Nat) : Dev :=
  let r := d.strm (cmdStream c)
  let d1 := d.inc (aCmd 0x128)
  if r.released then d1.ack c 0 0xF 0x10
  else
    let d2 := d1.ack c 0 r.st.code 0x10
    if r.st.terminal then d2.doneRec c true r.st.code r.status else d2

/-- A fetched command taken; `none` when its queue must stop (R381). -/
def Dev.takeCmd (d : Dev) (c job : Nat) : Option Dev :=
  if d.cmdEncBad c then some (d.refuse c 1)
  else
    let s := cmdStream c
    let (d1, ue) := d.streamUse s
    if ue then some (d1.ack c 0 0xF 0x09)
    else if d1.cmdJobBad c job then some (d1.refuse c 2)
    else
      let r := d1.strm s
      match seqClass r.job.isSome r.last (cmdSeq c) with
      | .dupLast => some (d1.dupLast c)
      | .dupOld => some ((d1.inc (aCmd 0x128)).ack c 0 0xF 0x10)
      | .next => if r.takes c then some (d1.accept c job) else d1.holdCmd c job
      | .gap => d1.holdCmd c job

/-- CMD_FETCH of the command at HEAD of a queue (R370, R371, R378). -/
def Dev.cmdFetch (d : Dev) (q : Nat) (e : HostEnd) : Dev :=
  let s := d.sq q
  if !d.cmdTakes ∨ !d.bit (aSq q 8) 31 ∨ (s.st ≠ .active ∧ s.st ≠ .stalled) ∨ s.head = s.tail then d
  else
    let (d1, data, p, fail) := d.sqRead q e
    if fail then d1.sqError q 0x0B
    else if p then d1.sqError q 0x01
    else match d1.takeCmd (ofBytesLE data) (d1.fld (aSq q 8) 29 24) with
      | some d2 => d2.putSq q { (d2.sq q) with st := .active, head := (s.head + 1) % d.sqSize q }
      | none => (d1.putSq q { s with st := .stalled }).raise (aCmd 0) 3

/-- The command at HEAD of a queue as memory holds it. -/
def Dev.sqPeek (d : Dev) (q : Nat) : Nat :=
  let a := d.sqAt q (d.sq q).head
  ofBytesLE (if d.sqHost q then (d.hostRead a 64).1 else d.peek a 64)

/-- A fetch of a command of one opcode: nothing where the command at HEAD has another. -/
def Dev.cmdOpcode (d : Dev) (q op : Nat) : Dev := if cmdOp (d.sqPeek q) = op then d.cmdFetch q .served else d

/-- CMD_HELD_ACCEPT: the stream's held command that is next (R378, R379). -/
def Dev.heldAccept (d : Dev) (s : Nat) : Dev :=
  let r := d.strm s
  match d.cb.hold.find? (fun h => h.stream == s && h.seq == seqSucc r.last) with
  | none => d
  | some h =>
    if d.cmdTakes && r.takes h.cmd then
      (d.setHold (d.cb.hold.filter (fun x => !(x.stream == s && x.seq == h.seq)))).accept h.cmd h.job
    else d

/-- CMD_GAP_TIMEOUT of a held command (R378). -/
def Dev.gapTimeout (d : Dev) (s seq : Nat) : Dev :=
  match d.cb.hold.find? (fun h => h.stream == s && h.seq == seq) with
  | none => d
  | some h =>
    if d.isGap h && h.left == 0 then
      ((d.setHold (d.cb.hold.filter (fun x => !(x.stream == s && x.seq == seq)))).inc (aCmd 0x12C)).ack h.cmd 0 0xF 0x0F
    else d

/-! ## Completions (R391–R393) -/

/-- RES0 of a WAIT or control command whose target has reached the state it waits for. -/
def Dev.controlDone (d : Dev) (r : CmdStream) : Option Nat :=
  let t := d.strm (cmdArg r.cmd 0 % 2 ^ 20)
  match r.out with
  | some (st, status) => some (if cmdOp r.cmd = 2 then status + st * 256 else st)
  | none =>
    if cmdOp r.cmd = 3 ∧ t.st = .suspended then some t.st.code
    else if cmdOp r.cmd = 4 ∧ t.st ≠ .suspended ∧ t.st ≠ .suspending then some t.st.code
    else none

/-- CONTROL_CMD_COMPLETE of a stream's command. -/
def Dev.controlComplete (d : Dev) (s : Nat) : Dev :=
  let r := d.strm s
  if r.job.isSome ∧ r.st = .queued ∧ 2 ≤ cmdOp r.cmd then
    match d.controlDone r with
    | some res => d.finish s .done 0 0x1FF res
    | none => d
  else d

/-- Is the start of a QUEUED RUN due (R391)? A listed core in reset waits for its end. -/
def Dev.runDue (d : Dev) (r : CmdStream) : Bool :=
  (!bitN r.cmd 10 || r.slotT.isSome) && !d.cb.scanning && !d.bit (aRst 0x10C) 0 &&
    r.cores.all (fun l => match d.physOf l.lcore with
      | none => true
      | some c => !(d.cb.streams.any (fun p => p.2.holds.contains c)) && !(d.core c).inReset
          && [(d.core c).x, (d.core c).a].all (fun s => s.st == .idle || s.st == .halted))

/-- One core of a RUN loaded and started (R189, R391). -/
def Dev.launchCore (d : Dev) (l : LaunchCore) : Dev :=
  let c := l.phys
  ([(0x110, l.xBase % 2 ^ 32), (0x114, l.xBase / 2 ^ 32), (0x118, l.xLen), (0x120, l.aBase % 2 ^ 32), (0x124, l.aBase / 2 ^ 32),
    (0x128, l.aLen)].foldl (fun (d : Dev) p => d.setReg (aStrm c p.1) (BitVec.ofNat 32 p.2)) d).strmStart c true true

/-- Address registers of a RUN's image. -/
def Dev.imageAt (d : Dev) (l : LaunchCore) : Dev :=
  let c := l.phys
  (((d.setReg (aCctl c 0x118) (BitVec.ofNat 32 l.ctx)).setReg (aCctl c 0x11C) (BitVec.ofNat 32 (l.ctx / 2 ^ 32))).setReg
    (aCctl c 0x120) (BitVec.ofNat 32 (l.ctx + 0x200000))).setReg (aCctl c 0x124) (BitVec.ofNat 32 ((l.ctx + 0x200000) / 2 ^ 32 % 65536))

/-- RUN_START (R391, R392). -/
def Dev.runStart (d : Dev) (s : Nat) : Dev :=
  let r := d.strm s
  if r.job.isNone ∨ cmdOp r.cmd ≠ 1 ∨ r.st ≠ .queued ∨ !d.runDue r then d
  else
    let cs := r.cores.map (fun l => { l with phys := (d.physOf l.lcore).getD 0x1FF })
    if cs.any (fun l => decide (l.phys = 0x1FF) || (d.core l.phys).job != r.job) then d.finish s .failed 0x03 0x1FF 0
    else if r.image then
      match cs.find? (fun l => d.restoreCheck l.phys l.ctx != 0) with
      | some l => ((d.imageAt l).ctxRestore l.phys l.cmem).finish s .failed (d.restoreCheck l.phys l.ctx) 0x1FF 0
      | none =>
        let d1 := cs.foldl (fun d l => (d.imageAt l).ctxRestore l.phys l.cmem) d
        (d1.setStrm s { r with st := .running, cores := cs, startT := d.tick }).journal s
    else
      ((cs.foldl Dev.launchCore d).setStrm s { r with st := .running, cores := cs, startT := d.tick }).journal s

/-- RUN_DONE. -/
def Dev.runDone (d : Dev) (s : Nat) : Dev :=
  let r := d.strm s
  if cmdOp r.cmd = 1 ∧ r.st = .running ∧ (r.cores.all (fun l => (d.core l.phys).ctx.isNone && (d.core l.phys).x.st == .halted && (d.core l.phys).a.st == .halted)) then
    d.finish s .done 0 0x1FF 0
  else d

/-- RUN_SUSPEND_DONE. -/
def Dev.runSuspended (d : Dev) (s : Nat) : Dev :=
  let r := d.strm s
  if r.st ≠ .suspending ∨ r.cores.any (fun l => (d.core l.phys).ctx.isSome) then d
  else if r.cores.any (fun l => d.fld (aCctl l.phys 0x114) 15 8 != 0) then d.finish s .failed 0x09 0x1FF 0
  else
    let d1 := d.setStrm s { r with image := true, st := .suspended, pendResume := false, pendCancel := false }
    if r.pendCancel then d1.finish s .cancelled 0x11 0x1FF 0
    else if r.pendResume then d1.runQueued s
    else d1.journal s

/-- RUN_CANCEL_DONE. -/
def Dev.runCancelled (d : Dev) (s : Nat) : Dev :=
  let r := d.strm s
  if r.st = .cancelling ∧ (r.cores.all (fun l => !(d.core l.phys).inReset)) then d.finish s .cancelled 0x11 0x1FF 0 else d

/-! ## Journal scan, zeroing and copy (R385–R387) -/

/-- Number of command streams (R383). -/
def nStreams : Nat := 2 ^ 20

/-- One stream as the scan leaves it. -/
def Dev.scanStream (d : Dev) (s : Nat) : Dev :=
  let r := d.strm s
  match r.st with
  | .running | .suspending =>
    ((d.setStrm s { r with image := false, restarts := r.restarts + 1, pendResume := false, pendCancel := false }).inc (aCmd 0x13C)).runQueued s
  | .cancelling => d.finish s .cancelled 0x11 0x1FF 0
  | .queued => if cmdOp r.cmd = 1 then d.runQueued s else d
  | _ => d

/-- Streams as both journal copies hold them, after a recovering enable (R386). -/
def Dev.readJournal (d : Dev) : Dev :=
  (List.range nStreams).foldl (fun d s =>
    let (d1, w) := d.jrnGet s
    match w with
    | some v => if bitN v 31 then d1.setStrm s (CmdStream.ofEntry v) else d1
    | none => d1.raise (aCmd 0) 4) d

/-- Commands accepted and not terminal, by job. -/
def Dev.showJobs (d : Dev) : Dev :=
  (List.range 64).foldl (fun d n => d.setF (aCmdJ n 4) 23 0 (d.jobStreams n (fun r => !r.st.terminal)).length) d

/-- JOURNAL_SCAN. After a warm reset no stream's record is left, and the journal is read first. -/
def Dev.journalScan (d : Dev) : Dev :=
  if !d.cb.scanning ∨ d.bit (aRst 0x10C) 0 then d
  else
    let d1 := (if d.cb.recovering then d.readJournal else d).showJobs
    let d2 := (d1.cb.streams.map (fun p => p.1)).foldl Dev.scanStream d1
    { d2 with cb := { d2.cb with scanning := false, recovering := false } }

/-- CMD_JRNL_ENABLE: EN 0→1 with RECOVER or without (R386); quiesced while PAUSED (R400). -/
def Dev.jrnEnable (d : Dev) (recover : Bool) : Dev :=
  if !d.cb.paused ∨ d.bit (aCmd 0x104) 31 then d
  else
    let d1 := ((d.putB (aCmd 0x104) 31 true).putB (aCmd 0x104) 30 recover).setReg (aCmd 0x118) 3
    if recover then { d1 with cb := { d1.cb with scanning := true, recovering := true, streams := [], cached := [] } }
    else { d1 with cb := { d1.cb with zeroing := true } }

/-- One stream's entry written in one copy; a copy on a held stack is lost. -/
def Dev.jrnPut (d : Dev) (i s w : Nat) : Dev :=
  let pa := d.jrnBase i + 64 * s
  if !d.jrnOk i then d
  else if (d.stack (keyStack (d.hbmKey pa))).held then d.jrnDegrade i
  else d.writeThrough pa (bytesLE 64 w)

/-- JRNL_ZERO_DONE: both copies zero, every stream unbound. -/
def Dev.jrnZeroed (d : Dev) : Dev :=
  if !d.cb.zeroing then d
  else
    let d1 := (List.range nStreams).foldl (fun d s => (d.jrnPut 0 s 0).jrnPut 1 s 0) d
    ({ d1 with cb := { d1.cb with zeroing := false, streams := [], cached := [] } }).showJobs

/-- The failed copy that a resume replaces (R387). -/
def Dev.jrnReplaced (d : Dev) : Option Nat :=
  [0, 1].find? (fun i => !d.jrnOk i && d.jrnOk (1 - i) && d.cb.rebased.contains i)

/-- CMD_PAUSE: a write of PAUSE. Acceptance is one step, so PAUSED stands at once; a resume first copies to a replaced
copy. -/
def Dev.cmdPause (d : Dev) (pause : Bool) : Dev :=
  let d1 := d.putB (aCmd 0x100) 0 pause
  if pause then { d1 with cb := { d1.cb with paused := true } }
  else if d1.cb.paused && d1.bit (aCmd 0x104) 31 && d1.jrnReplaced.isSome then { d1 with cb := { d1.cb with copying := true } }
  else { d1 with cb := { d1.cb with paused := d1.cb.copying } }

/-- JRNL_COPY_DONE. -/
def Dev.jrnCopied (d : Dev) : Dev :=
  match d.jrnReplaced with
  | none => d
  | some i =>
    if !d.cb.copying then d
    else
      let d1 := d.putB (aCmd 0x118) i true
      let d2 := (List.range nStreams).foldl (fun d s =>
        let (d1, _, w) := d.jrnRead (1 - i) s
        d1.jrnPut i s w) d1
      let d3 := if d2.jrnOk i then d2.putB (aCmd 0x10) 2 false else d2
      { d3 with cb := { d3.cb with copying := false, rebased := d3.cb.rebased.filter (fun k => k != i), paused := d3.bit (aCmd 0x100) 0 } }

/-! ## Jobs and streams (R395, R396) -/

/-- CMD_STREAM_RESET. -/
def Dev.streamReset (d : Dev) (s : Nat) : Dev :=
  if (d.strm s).released ∧ (d.cb.hold.any (fun h => h.stream == s)) = false then (d.setStrm s {}).journal s
  else d.raise (aCmd 0) 5

/-- Does a RUN hold a core? -/
def Dev.heldByRun (d : Dev) (c : Nat) : Bool := d.cb.streams.any (fun p => p.2.holds.contains c)

/-- One bit of CMD_JOB_n_CORES_m written; a core that is LOADING joins no job (R451). -/
def Dev.coreBit (d : Dev) (n m : Nat) (v : Word) (k : Nat) : Dev :=
  let a := aCmdJ n (8 + 4 * m)
  match d.physOf (32 * m + k) with
  | none => d
  | some c =>
    if flag v k then
      if (d.core c).job.isNone && (d.core c).clearing.isNone && !d.fenced c && !d.bit (aFwl (0x180 + c / 32 * 4)) (c % 32) then
        (d.onCore c (fun x => { x with job := some n })).putB a k true
      else d
    else if d.bit a k && [(d.core c).x, (d.core c).a].all (fun s => s.st == .idle || s.st == .halted) && !d.heldByRun c then
      (d.leaveJob c).putB a k false
    else d

/-- JOB_CORES_WRITE. -/
def Dev.jobCoresWrite (d : Dev) (n m : Nat) (v : Word) : Dev := (List.range 32).foldl (fun d k => d.coreBit n m v k) d

/-! ## The frame calendar (R397, R398) -/

/-- A calendar entry's progress. -/
def Dev.calRec (d : Dev) (e : Nat) : CalRec := d.cb.cal.getD e {}
def Dev.setCal (d : Dev) (e : Nat) (r : CalRec) : Dev := { d with cb := { d.cb with cal := d.cb.cal.store {} e r } }

/-- P in 1/65,536 of a tick. -/
def Dev.calPer (d : Dev) (e : Nat) : Nat := d.fld (aCal e 4) 23 0 * 65536 + d.fld (aCal e 8) 15 0

/-- Low 32 bits of the tick of slot k. -/
def Dev.calTick (d : Dev) (e k : Nat) : Nat := ((d.reg (aCal e 0xC)).toNat + k * d.calPer e / 65536) % 2 ^ 32

/-- EN of an entry written 1: the first slot is the first one not in the past. -/
def Dev.calEnable (d : Dev) (e : Nat) : Dev :=
  let ago := (d.tick + 2 ^ 32 - (d.reg (aCal e 0xC)).toNat) % 2 ^ 32
  let p := d.calPer e
  d.setCal e { k := if 2 ^ 31 ≤ ago ∨ p = 0 then 0 else (65536 * ago + p - 1) / p }

/-- CAL_SLOT: the entry's next slot has come. -/
def Dev.calSlot (d : Dev) (e : Nat) : Dev :=
  let r := d.calRec e
  let late := (d.tick % 2 ^ 32 + 2 ^ 32 - d.calTick e r.k) % 2 ^ 32
  let s := d.fld (aCal e 0) 19 0
  if !d.bit (aCal e 0) 31 ∨ 2 ^ 31 ≤ late then d
  else
    let d1 := d.setCal e { r with k := r.k + 1 }
    let c := d.strm s
    if d.calOf s ≠ some e then d1
    else if c.job.isSome ∧ c.st = .queued ∧ bitN c.cmd 10 then
      if c.slotT.isSome then d1
      else (d1.setStrm s { c with slotT := some (d.tick - late) }).setCal e { k := r.k + 1, open_ := some (c.last, d.tick - late) }
    else d1.inc (aCal e 0x18)

/-- CAL_DEADLINE. -/
def Dev.calDeadline (d : Dev) (e : Nat) : Dev :=
  let r := d.calRec e
  match r.open_ with
  | none => d
  | some (seq, t) =>
    if d.tick < t + d.fld (aCal e 0x10) 23 0 then d
    else
      let c := d.strm (d.fld (aCal e 0) 19 0)
      let d1 := d.setCal e { r with open_ := none }
      if c.last = seq ∧ !c.st.terminal then d1.inc (aCal e 0x14) else d1

end Sys2Proof.Machine
end

