-- ==== Sys2Proof/Machine/Power.lean ====
section
/-! DEFINITION. Power states, the power cap and the leave arbiter, clocks (14 R401–R418). -/

namespace Sys2Proof.Machine

/-- The power controller changed by a function. -/
def Dev.onPw (d : Dev) (f : Pwr → Pwr) : Dev := { d with pw := f d.pw }

/-- Is READY set (R436, R437)? -/
def Dev.ready (d : Dev) : Bool := d.bit (aFwl 0x100) 31

/-- Do the fast clocks run: state A0, no thermal trip, no cold reset held (R407, R417, R477)? -/
def Dev.clockOn (d : Dev) : Bool := d.pw.cur == 0 && !d.pw.therm && !d.pw.railHold

/-! ## Power states (R405–R409) -/

/-- Is the device idle (R405)? The boot is part of its reset (R420). -/
def Dev.isIdle (d : Dev) : Bool :=
  d.ready && d.cores.all (fun p =>
      [p.2.x, p.2.a].all (fun s => s.st != .running && s.st != .stopped) && p.2.ops.isEmpty && p.2.drains.isEmpty && p.2.drain.isNone
      && p.2.trans.isEmpty && p.2.ctx.isNone && !p.2.inReset)
    && d.chans.all (fun p => p.2.st != .active) && d.fab.rings.all (fun p => p.2.st != .active) && d.fab.tags.isEmpty
    && d.cb.sqs.all (fun p => p.2.head == p.2.tail)
    && d.sqrCopy.isEmpty && d.hwSends.isEmpty && d.sqrJobs.all (fun p => p.2.st != .running && p.2.st != .merging && p.2.phase == 0)
    && d.fld (aRst 0x10C) 2 0 == 0

/-- What holds the device above A4 (R406): HOLD_BY of PWR_STATE. -/
def Dev.holdBy (d : Dev) : Nat :=
  b2n ((List.range 64).any (fun n => d.bit (aFabJ n 0) 31)) + 2 * b2n ((List.range 64).any (fun e => d.bit (aCal e 0) 31))
    + 4 * b2n ((List.range 64).any (fun n => d.bit (aCmdJ n 0) 31)) + 8 * b2n (d.bit (aCmd 0x104) 31)
    + 16 * b2n (decide (d.fld (aPwr 0x108) 2 0 < 4) || decide (d.fld (aPwr 0x104) 23 0 < 12000))

/-- Is state s allowed (R406)? -/
def Dev.stateOk (d : Dev) (s : Nat) : Bool :=
  decide (s ≤ d.fld (aPwr 0x108) 2 0) && (decide (s < 3) || d.holdBy % 4 == 0) && (decide (s < 4) || d.holdBy % 16 == 0)

/-- Exit latency in µs, rounded up (0.5 µs for A1), and break-even in µs, of a state. -/
def exitUs (s : Nat) : Nat := [0, 1, 25, 600, 12000].getD s 0
def evenUs (s : Nat) : Nat := [0, 2, 200, 20000, 500000].getD s 0

/-- The controller's choice at a tick (R407), for a device idle since n ticks of 0.64 µs. -/
def Dev.powerTarget (d : Dev) (n : Nat) : Nat :=
  [1, 2, 3, 4].foldl (fun t s =>
    if d.stateOk s && decide (exitUs s ≤ d.fld (aPwr 0x104) 23 0) && decide (100 * evenUs s ≤ 64 * n) then s else t) 0

/-- PWR_STATE. -/
def Dev.showPwr (d : Dev) : Dev := d.setReg (aPwr 0x10C) (BitVec.ofNat 32 (d.holdBy * 256 + d.pw.cur))

/-- HBM loses its contents: every cell of it is as one that nothing has written (R409). -/
def Dev.hbmLost (d : Dev) : Dev :=
  { d with mem := d.mem.filter (fun p => decide (hbmEnd ≤ p.1)), poison := d.poison.filter (fun b => decide (hbmEnd ≤ 64 * b)),
           errs := d.errs.filter (fun p => decide (hbmEnd ≤ 64 * p.1)), cache := [] }

/-- Every stack changed by a function. -/
def Dev.eachStack (d : Dev) (f : Stack → Stack) : Dev := (List.range 16).foldl (fun d i => d.putStack i (f (d.stack i))) d

/-- A deeper state entered, through the shallower ones in order (R407): A3 writes the shared caches back and puts HBM into
self-refresh (R238), A4 turns HBM off. -/
def Dev.enterState (d : Dev) (s : Nat) : Dev :=
  let d1 := if d.pw.cur < 3 ∧ 3 ≤ s then (d.writeBack (fun _ => true)).eachStack (fun k => { k with selfRefresh := true }) else d
  let d2 := if d.pw.cur < 4 ∧ 4 ≤ s then d1.hbmLost else d1
  d2.onPw (fun p => { p with cur := s })

/-- AON_TICK: the tick counts (R402), gap and debug times run (R378, R466), the controller chooses a state (R407). -/
def Dev.aonTick (d : Dev) : Dev :=
  let d1 := ({ d with tick := (d.tick + 1) % 2 ^ 64 }).gapTick
  let d2 : Dev := { d1 with tru := { d1.tru with left := d1.tru.left - 1 } }
  let n := if d2.isIdle then d2.pw.idle + 1 else 0
  let t := d2.powerTarget n
  let d3 := (d2.incWrap (aPwr (0x150 + 4 * d2.pw.cur))).onPw (fun p => { p with idle := n })
  (if d2.isIdle ∧ d2.pw.leaving = false ∧ d3.pw.cur < t then d3.enterState t else d3).showPwr

/-- AON_TICK_READ: the read answers the low word and latches the high one (R434). -/
def Dev.tickRead (d : Dev) : Dev :=
  (d.onPw (fun p => { p with tickHi := d.tick / 2 ^ 32 })).respond (bytesLE 4 d.tick) false

/-- WAKE_EVENT of a cause, by AON_WAKE_CAUSE's bit (R408). -/
def Dev.wake (d : Dev) (cause : Nat) : Dev :=
  if d.pw.cur = 0 ∨ d.pw.leaving then d
  else (d.setReg (aAon 0x110) (BitVec.ofNat 32 (2 ^ cause))).onPw (fun p => { p with leaving := true, idle := 0 })

/-- AON_WAKE_TIMER: the tick reaches its value; 0 is off (R408, R434). -/
def Dev.wakeTimer (d : Dev) : Dev :=
  if d.reg (aAon 0x114) ≠ 0 ∧ d.tick % 2 ^ 32 = (d.reg (aAon 0x114)).toNat then d.wake 4 else d

/-- Every core as it comes back from power-off: reset, its memory being cleared (R206, R409). -/
def Dev.coresBack (d : Dev) : Dev :=
  (List.range 312).foldl (fun d c => ((d.coreReset c).onCore c (fun k => { k with inReset := false })).cmemClear c) d

/-- The stacks retrain on the way out of A3 or A4; those listed fail (R226, R409). A window skipped is not made up, and its
deferrals end with it; one still due keeps them (R246). -/
def Dev.stacksBack (d : Dev) (bad : List Nat) : Dev :=
  (List.range 16).foldl (fun d i =>
    let s := d.stack i
    let due := nextDue d.tick (d.fld (aHmc i 0x120) 23 0) d.hmcPeriod
    let d1 := d.putStack i (if s.due < d.tick then { s with selfRefresh := false, due := due, orig := due, defers := 0 } else { s with selfRefresh := false })
    if bad.contains i ∧ s.held = false then d1.holdStack i else d1) d

/-- The ports retrain from their keep-alive lanes, with these lanes usable (R409). -/
def Dev.portsBack (d : Dev) (lanes : List Nat) : Dev :=
  (List.range 24).foldl (fun d p => if (d.port p).up then (d.portTrain p).portTrained p (lanes.getD p 0) else d) d

/-- STATE_EXIT_DONE (R407, R409, R446): stacks that fail retraining, lanes of each port. The routers' reduce buffers, redBuf and
redFly, hold after A3 or A4 what they held before (R28 gives nothing; DESIGN CHOICE, log entry 120). -/
def Dev.exitDone (d : Dev) (bad lanes : List Nat) : Dev :=
  if !d.pw.leaving then d
  else
    let d1 := d.onPw (fun p => { p with cur := 0, leaving := false, idle := 0 })
    (if 3 ≤ d.pw.cur then ((d1.coresBack).stacksBack bad).portsBack lanes else d1).showPwr

/-! ## Power leave (R411–R416) -/

/-- Tokens of the grants that a test picks. -/
def grantSum (l : List LeaveGrant) (f : LeaveGrant → Bool) : Nat := ((l.filter f).map (fun g => g.tokens)).foldl (fun a b => a + b) 0

/-- Tokens granted, those of grants being revoked included; and without them. -/
def Dev.granted (d : Dev) : Nat := grantSum d.grants (fun _ => true)
def Dev.kept (d : Dev) : Nat := grantSum d.grants (fun g => !g.leaving)

/-- Requests in queue order with one put in: timed-out ones first, then revoked ones by the number of their grants, then
new ones (R414, R416). -/
def queueIn (l : List LeaveReq) (r : LeaveReq) : List LeaveReq :=
  let before (x : LeaveReq) : Bool := x.tmo || (x.revoked && decide (x.no < r.no))
  l.filter before ++ [r] ++ l.filter (fun x => !before x)

/-- A grant is revoked (R415): its plane pauses at its boundary, and its request waits at the head of the queue. -/
def Dev.revoke (d : Dev) (g : LeaveGrant) : Dev :=
  let d1 : Dev := { d with
    grants := d.grants.map (fun x => if x = g then { x with leaving := true } else x)
    leaveQ := queueIn d.leaveQ { core := g.core, plane := g.plane, tokens := g.tokens, tick := d.tick, revoked := true, no := g.no } }
  (d1.onCore g.core (fun k => k.setEdge g.plane { (k.edge g.plane) with revoked := true })).inc (aPwr 0x130)

/-- The newest grant that may be revoked. -/
def Dev.newest (d : Dev) : Option LeaveGrant := (d.grants.filter (fun g => !g.leaving)).getLast?

/-- Is the one grant left exempt: made alone, and the only one (R415)? -/
def Dev.exempt (d : Dev) : Bool := match d.grants.filter (fun g => !g.leaving) with
  | [g] => g.alone
  | _ => false

/-- Grants revoked, newest first, while more than a limit stays granted. -/
def Dev.revokeTo (limit : Nat) (spare : Bool) : Nat → Dev → Dev
  | 0, d => d
  | n + 1, d =>
    if d.kept ≤ limit ∨ (spare ∧ d.exempt) then d
    else match d.newest with
      | some g => Dev.revokeTo limit spare n (d.revoke g)
      | none => d

/-- LEAVE_BUDGET_RECOMPUTE with the measured power of everything but the planes, in W (R411, R415). -/
def Dev.leaveBudget (d : Dev) (other : Nat) : Dev :=
  let b := 16 * (10 * d.fld (aPwr 0x100) 7 0 - other - d.fld (aPwr 0x110) 9 0)
  let d1 : Dev := { ((d.setReg (aPwr 0x124) (BitVec.ofNat 32 (other % 4096))).setReg (aPwr 0x11C) (BitVec.ofNat 32 b)) with budget := b }
  let d2 := Dev.revokeTo b true d1.grants.length d1
  if d2.kept ≤ b then { d2 with grants := d2.grants.map (fun g => { g with alone := false }) } else d2

/-- May the head request be granted (R414–R416)? A revoked plane is granted again once its clocks are gated. -/
def Dev.leaveFits (d : Dev) (r : LeaveReq) : Bool :=
  !(d.grants.any (fun g => g.core == r.core && g.plane == r.plane && g.leaving)) &&
    (if r.alone then d.grants.isEmpty else !d.grants.any (fun g => g.alone) && decide (d.granted + r.tokens ≤ d.budget))

/-- LEAVE_GRANT of the head request. -/
def Dev.leaveGrant (d : Dev) : Dev :=
  match d.leaveQ with
  | [] => d
  | r :: l =>
    if !d.leaveFits r then d
    else
      let n := d.pw.grantNo
      let d1 : Dev := { d with leaveQ := l, grants := d.grants ++ [{ core := r.core, plane := r.plane, tokens := r.tokens, no := n, alone := r.alone }] }
      let d2 := (d1.onPw (fun p => { p with grantNo := n + 1 })).inc (aPwr 0x12C)
      d2.onCore r.core (fun k =>
        let e := k.edge r.plane
        k.setEdge r.plane { e with tokens := e.tokens + r.tokens, revoked := false, paused := false })

/-- LEAVE_TIMEOUT of a plane's request (R416). -/
def Dev.leaveTimeout (d : Dev) (c pl : Nat) : Dev :=
  match d.leaveQ.find? (fun r => r.core == c && r.plane == pl) with
  | none => d
  | some r =>
    if r.tmo ∨ d.tick < r.tick + d.fld (aPwr 0x114) 15 0 then d
    else
      let d1 := ((d.raise (aPwr 0) 0).inc (aPwr 0x134)).setReg (aPwr 0x138) (BitVec.ofNat 32 (4096 * pl + c))
      let d2 := Dev.revokeTo (d.budget - r.tokens) false d1.grants.length d1
      let r1 := { r with tmo := true, alone := decide (d.budget < r.tokens) }
      let rest := d2.leaveQ.filter (fun x => !(x.core == c && x.plane == pl))
      { d2 with leaveQ := rest.filter (fun x => x.tmo) ++ [r1] ++ rest.filter (fun x => !x.tmo) }

/-- LEAVE_RETURN: the plane's edge has had no operation for HOLD cycles (R413). -/
def Dev.leaveReturn (d : Dev) (c pl : Nat) : Dev :=
  let k := d.core c
  let e := k.edge pl
  if e.tokens = 0 ∨ e.revoked ∨ (subPlanes pl).any (fun p => (k.injecting p).isSome) ∨ d.cycle < e.busyAt + d.fld (aPwr 0x108) 31 16 then d
  else { (d.setCore c (k.setEdge pl { e with tokens := 0 })) with grants := d.grants.filter (fun g => !(g.core == c && g.plane == pl)) }

/-! ## Clock, temperature, supply (R403, R404, R417, R418, R475) -/

/-- CLK_MAIN_STEP. -/
def Dev.clkStep (d : Dev) : Nat := d.fld (aClk 0x104) 3 0

/-- The clock moves to a step. -/
def Dev.setStep (d : Dev) (n : Nat) : Dev := (d.setReg (aClk 0x104) (BitVec.ofNat 32 n)).inc (aClk 0x108)

/-- The clock one step down; VDD_ARR follows when the regulator acknowledges (R475). -/
def Dev.stepDown (d : Dev) (ack : Bool) : Dev :=
  if 8 ≤ d.clkStep then d
  else
    let d1 := d.setStep (d.clkStep + 1)
    if ack then d1.onPw (fun p => { p with vid := d1.clkStep }) else d1

/-- PWR_CAP in W. -/
def Dev.capW (d : Dev) : Nat := 10 * d.fld (aPwr 0x100) 7 0

/-- The running 1 ms average as measured. -/
def Dev.setAvg (d : Dev) (avg : Nat) : Dev := d.setReg (aPwr 0x128) (BitVec.ofNat 32 (avg % 4096))

/-- CAP_CLOCK_STEP: the average would pass PWR_CAP (R417). -/
def Dev.capStep (d : Dev) (avg : Nat) (ack : Bool) : Dev :=
  let d1 := d.setAvg avg
  if avg ≤ d.capW ∨ 8 ≤ d.clkStep then d1 else (d1.stepDown ack).raise (aPwr 0) 1

/-- PACE_STEP (R417). -/
def Dev.paceStep (d : Dev) (avg : Nat) : Dev :=
  let d1 := d.setAvg avg
  if d.capW < avg then
    if d.clkStep < 8 ∨ 15 ≤ d.pw.pace then d1 else (d1.onPw (fun p => { p with pace := p.pace + 1 })).raise (aPwr 0) 5
  else d1.onPw (fun p => { p with pace := p.pace - 1 })

/-- TEMP_LIM and THERM_CRIT in °C. -/
def Dev.tempLim (d : Dev) : Nat := d.fld (aPwr 0x118) 7 0

/-- The hottest die sensor as read. -/
def Dev.setDie (d : Dev) (t : Nat) : Dev := { d with owl := { d.owl with die := t } }

/-- TEMP_LIMIT (R417). -/
def Dev.tempLimit (d : Dev) (t : Nat) (ack : Bool) : Dev :=
  let d1 := d.setDie t
  if t < d.tempLim then d1 else (d1.stepDown ack).raise (aPwr 0) 2

/-- THERM_CRIT (R417). -/
def Dev.thermCrit (d : Dev) (t : Nat) : Dev :=
  let d1 := d.setDie t
  if t < d.fld (aPwr 0x118) 15 8 then d1 else (d1.onPw (fun p => { p with therm := true })).raise (aPwr 0) 3

/-- THERM_CRIT_RELEASE (R417). -/
def Dev.thermRelease (d : Dev) (t : Nat) : Dev :=
  let d1 := d.setDie t
  if t + 10 ≤ d.tempLim then d1.onPw (fun p => { p with therm := false }) else d1

/-- CLOCK_STEP_UP: first the voltage, then the clock, once its cause is gone and pacing is lifted (R403, R417, R475). -/
def Dev.stepUp (d : Dev) (avg t : Nat) (ack : Bool) : Dev :=
  let d1 := (d.setAvg avg).setDie t
  if d.clkStep = 0 ∨ d.pw.pace ≠ 0 ∨ d.capW < avg ∨ d.tempLim ≤ t ∨ ack = false then d1
  else (d1.onPw (fun p => { p with vid := d.clkStep - 1 })).setStep (d.clkStep - 1)

/-- VDD_DROOP (R418). -/
def Dev.droop (d : Dev) : Dev := ((d.inc (aPwr 0x13C)).raise (aPwr 0) 4).owlEv 8 1

/-- Is THERM_N driven low? -/
def Dev.thermLow (d : Dev) : Bool := d.pw.therm

/-! ## Reference clocks (R402, R432, R434) -/

/-- REFCLK_LOSS: REFCLK_100, or REFCLK_SLP. -/
def Dev.refLoss (d : Dev) (slp : Bool) : Dev :=
  let d1 := (d.putB (aClk 0x100) (if slp then 9 else 8) false).raise (aClk 0) 1
  if slp then d1 else d1.putB (aAon 0x108) 0 false

/-- REFCLK_RETURN; `drift`: the tick has drifted by more than 500 ppm meanwhile. -/
def Dev.refReturn (d : Dev) (slp drift : Bool) : Dev :=
  let d1 := d.putB (aClk 0x100) (if slp then 9 else 8) true
  if slp then d1
  else
    let d2 := d1.putB (aAon 0x108) 0 true
    if drift then d2.raise (aAon 0) 0 else d2

end Sys2Proof.Machine
end

