-- ==== Sys2Proof/Machine/Reset.lean ====
section
/-! DEFINITION. The five resets (14 R420–R423), loss of a PLL (R404), rail faults (16 R477). -/

namespace Sys2Proof.Machine

/-- Every physical core. -/
def allCores : List Nat := List.range 312

/-- LAST_CAUSE of AON_STAT. -/
def Dev.cause (d : Dev) (n : Nat) : Dev := d.setF (aAon 0x108) 19 16 n

/-! ## Compute reset -/

/-- Fabric sends and tags of the jobs that a test picks are cleared (R305, R422): the descriptor at HEAD of a send ring
has not been started again; a send of Squirrel's running generation that is cleared leaves the generation unfinished. -/
def Dev.clearSends (d : Dev) (f : Nat → Bool) : Dev :=
  let gone (i : Nat) : Bool := (Tbl.look d.fab.sends i).map (fun s => f s.job) == some true
  let hw := (d.fab.sends.filter (fun p => f p.2.job && p.2.hw && p.2.gen)).map (fun p => p.2.job)
  let d1 := d.onFab (fun b => { b with
    sends := b.sends.filter (fun p => !f p.2.job), tags := b.tags.filter (fun p => !f p.2.job)
    out := b.out.filter (fun o => !((o.send.map gone) == some true) && !((o.pkt.type == 6 || o.pkt.type == 7) && f o.pkt.job))
    rings := b.rings.map (fun p => if f p.1 then (p.1, { p.2 with started := false, off := 0, send := none }) else p)
    cols := b.cols.filter (fun p => !f p.2.job), chunks := b.chunks.filter (fun c => !f c.job) })
  let d2 := hw.foldl (fun d n => d.setSqrJob n { (d.sqrJob n) with stuck := true }) d1
  { d2 with hwSends := d2.hwSends.map (fun h => if f h.job then { h with off := 0, send := none } else h)
            gateSends := d2.gateSends.filter (fun n => !f n) }

/-- A compute reset of a cause begins; one that runs already is all there is (R420, R421, R423, R268). -/
def Dev.computeReset (d : Dev) (why : Nat) : Dev :=
  if d.bit (aRst 0x10C) 0 then d
  else
    let d1 := allCores.foldl Dev.coreReset (d.cause why)
    let d2 : Dev := { (d1.dropRegs (fun a => decide (aDma 0 0 ≤ a) && decide (a < aDma 8 0))) with chans := [] }
    let d3 := (d2.writeBack (fun _ => true)).clearSends (fun _ => true)
    let d4 := (d3.onPw (fun p => { p with jobRst := [] })).setF (aRst 0x10C) 2 0 1
    { d4 with cb := { d4.cb with scanning := d4.cb.scanning || d4.bit (aCmd 0x104) 31 } }

/-- Key of RST_CTRL (R433). -/
def rstKey : Nat := 0xA5C3

/-- COMPUTE_RESET by RST_CTRL. -/
def Dev.computeCtrl (d : Dev) (key : Nat) : Dev := if key = rstKey then d.computeReset 4 else d

/-- COMPUTE_RESET_DONE (R421). -/
def Dev.computeDone (d : Dev) : Dev :=
  if !d.bit (aRst 0x10C) 0 then d
  else
    let d1 : Dev := { d with cores := d.cores.map (fun p => (p.1, { p.2 with inReset := false })) }
    (d1.setF (aRst 0x10C) 2 0 0).inc (aRst 0x110)

/-! ## Job reset (R422) -/

/-- RST_JOB: dropped while a compute reset runs; two of one job merge (R423). -/
def Dev.rstJob (d : Dev) (n : Nat) : Dev :=
  if d.bit (aRst 0x10C) 0 ∨ d.pw.jobRst.contains n then d
  else
    let d1 := (d.jobStop n 0x11 0x1FF false).disableJob n
    let d2 := (d1.jobCores n).foldl (fun d c => ((d.clearMember c).coreReset c).leaveJob c) d1
    let d3 := (d2.clearSends (fun j => j == n)).onFab (fun f => { f with lost := f.lost.filter (fun x => x.1 != n) })
    let d4 := (d3.jobStreams n (fun r => !r.st.terminal)).foldl (fun d s => d.finish s .cancelled 0x11 0x1FF 0) d3
    let d5 := ((d4.setReg (aStepJ n 0x1C) 0).setReg (aStepJ n 0x18) 0).setReg (aOwlJ (0x200 + 4 * n)) (resetVal (aOwlJ (0x200 + 4 * n)))
    let d6 : Dev := { d5 with armT := d5.armT.del n, readyT := d5.readyT.del n, armHwm := d5.armHwm.del n }
    (d6.onPw (fun p => { p with jobRst := setIns p.jobRst n })).putB (aRst 0x10C) 1 true

/-- JOB_RESET_DONE. -/
def Dev.jobResetDone (d : Dev) (n : Nat) : Dev :=
  let d1 := d.onPw (fun p => { p with jobRst := setDel p.jobRst n })
  d1.putB (aRst 0x10C) 1 (!d1.pw.jobRst.isEmpty)

/-! ## Warm and cold reset -/

/-- Registers that a warm reset keeps: the AON page, the peers' keys and the pins (R420, R434, R463). -/
def warmKept (a : Nat) : Bool := inPage (aAon 0) a || (inPage (aTruP 0) a && decide (0x100 ≤ a % 0x1000))

/-- What every reset of the whole device keeps: host memory, fuses, flash, the images that memory may hold, messages
sent, the model's own counters. -/
def Dev.outside (d : Dev) : Dev :=
  { cycle := d.cycle, free := d.free, hostMem := d.hostMem, hostPoison := d.hostPoison, images := d.images, imageNo := d.imageNo,
    sent := d.sent
    tru := { owner := d.tru.owner, revoked := d.tru.revoked, minSvn := d.tru.minSvn, blocks := d.tru.blocks, debugOff := d.tru.debugOff, rng := d.tru.rng }
    fw := { flash := d.fw.flash } }

/-- A warm reset (R420): the always-on domain, HBM in self-refresh and what the trust controller keeps there stay; the
shared caches are discarded (R238). -/
def Dev.warmReset (d : Dev) (why : Nat) : Dev :=
  let o := d.outside
  let d1 : Dev := { o with
    tick := d.tick, regs := d.regs.filter (fun p => warmKept p.1), shadow := d.shadow.filter (fun p => warmKept p.1)
    mem := d.mem.filter (fun p => decide (p.1 < hbmEnd)), poison := d.poison.filter (fun b => decide (64 * b < hbmEnd))
    errs := d.errs.filter (fun p => decide (64 * p.1 < hbmEnd))
    owl := { ended := d.tick }, tru := { o.tru with leaf := d.tru.leaf, leafEnd := d.tru.leafEnd }
    fw := { o.fw with recover := d.fw.recover, bootT := d.tick, cold := false }, pw := { tickHi := d.pw.tickHi } }
  ((d1.eachStack (fun _ => { selfRefresh := true })).cause why).inc (aAon 0x10C)

/-- WARM_RESET by RST_CTRL. -/
def Dev.warmCtrl (d : Dev) (key : Nat) : Dev := if key = rstKey then d.warmReset 2 else d

/-- PCIE_HOT_RESET, or a link-down reset. -/
def Dev.pcieHotReset (d : Dev) : Dev := d.warmReset 3

/-- A cold reset (R420): everything, the always-on domain included; HBM is lost. -/
def Dev.coldReset (d : Dev) (why : Nat) : Dev := d.outside.cause why

/-- COLD_RESET: power-on, or PERST_N low. -/
def Dev.coldCmd (d : Dev) (perst : Bool) : Dev := d.coldReset (if perst then 1 else 0)

/-- RAIL_FAULT: a rail out of range for some µs (R477); VDD_AON and VDDIO_18 stand apart, and VDD_AON takes the whole
device back to power-on. -/
inductive Rail where
  | aon | io | other
  deriving DecidableEq, Repr

def Dev.railFault (d : Dev) (r : Rail) (us : Nat) : Dev :=
  match r with
  | .aon => d.coldReset 0
  | .io => d
  | .other => if us ≤ 20 then d else (d.coldReset 0).onPw (fun p => { p with railHold := true })

/-- RAIL_RECOVERY: every rail in range for 1 ms and PERST_N high. -/
def Dev.railRecovery (d : Dev) (us : Nat) (perst : Bool) : Dev :=
  if perst ∧ 1000 ≤ us then d.onPw (fun p => { p with railHold := false }) else d

/-! ## PLLs (R403, R404) -/

/-- The PLLs of R401. -/
inductive Pll where
  | main (die : Fin 2)
  | mem (die : Fin 2)
  | sloer (die : Fin 2)
  | pcie
  deriving DecidableEq, Repr

/-- PLL_LOCK_LOSS: the PLL locks again 20 µs after it is started, before the command's reset or training ends. -/
def Dev.pllLoss (d : Dev) (p : Pll) : Dev :=
  let d1 := d.inc (aClk 0x10C)
  match p with
  | .main _ | .mem _ => ((d1.raise (aClk 0) 0).raise (aRst 0) 1).computeReset 6
  | .sloer die => ((List.range 12).map (fun i => 12 * die.val + i)).foldl (fun d p => if (d.port p).up then d.portTrain p else d) d1
  | .pcie => d1.inc (aHif 0x11C)

/-! ## Function Level Reset (R367) -/

/-- FLR: the queues' EN 0, STATE IDLE, ERR_CODE 0. -/
def Dev.flr (d : Dev) : Dev :=
  let d1 := d.computeReset 5
  let qs := (d1.regs.map (fun p => p.1)).filter (fun a =>
    decide (aSq 0 0 ≤ a) && decide (a < aSq 4095 0x10) && decide (0x100 ≤ a % 0x1000) && decide (a % 16 = 8))
  let d2 := qs.foldl (fun d a => d.setReg a (d.reg a &&& 0x7FFFF800#32)) d1
  { d2 with cb := { d2.cb with sqs := d2.cb.sqs.map (fun p => (p.1, { p.2 with st := .idle, err := 0 })) } }

end Sys2Proof.Machine
end

