-- ==== Sys2Proof/Machine/TrustOps.lean ====
section
/-! DEFINITION. The trust controller (15 R442, R454–R467): trees and signatures, measurements, quotes, debug unlock,
owner keys. The signature scheme itself is opaque (log entry 2). -/

namespace Sys2Proof.Machine

/-- The trust controller changed by a function. -/
def Dev.onTru (d : Dev) (f : Trust → Trust) : Dev := { d with tru := f d.tru }

/-- The owner slot in use: the lowest one written and not revoked; 4 for none (R456). -/
def Trust.slot (t : Trust) : Nat := ([0, 1, 2, 3].find? (fun k => (Tbl.look t.owner k).isSome && !t.revoked.contains k)).getD 4

/-- Digest of the owner key in use; Palrek's key for none. -/
def Trust.ownerKey (t : Trust) : List Byte := (Tbl.look t.owner t.slot).getD []

/-- POLICY of the running manifest (R440). -/
def Dev.policy (d : Dev) (b : Nat) : Bool := (d.fw.man.map (fun m => bitN m.policy b)).getD false

/-- TRU_STAT and the registers beside it as the trust controller stands (R467). -/
def Dev.showTru (d : Dev) : Dev :=
  let t := d.tru
  let st := b2n t.idOk * 2 ^ 31 + b2n t.sess.isSome * 2 ^ 30 + b2n t.exhausted * 2 ^ 29 + b2n t.cacheBad * 2 ^ 28
    + b2n (decide (t.scope ≠ 0)) * 2 ^ 27 + b2n d.fw.pushed * 2 ^ 26 + 2 ^ 24 * t.scope + t.slot
  [(0x100, st), (0x104, t.blocks.length), (0x108, t.leaf % 2 ^ 20), (0x10C, t.sessLeaf % 1024 * 65536 + t.sessNo % 65536),
   (0x110, ((d.fw.man.map (fun m => m.svn)).getD 0) % 128 * 256 + t.minSvn)].foldl
    (fun (d : Dev) p => d.setReg (aTru p.1) (BitVec.ofNat 32 p.2)) d

/-! ## Measurements (R460) -/

/-- Address of word w of measurement register m, and its 32 bytes. -/
def aMeas (m w : Nat) : Nat := aTru (0x200 + 0x20 * m + 4 * w)
def Dev.meas (d : Dev) (m : Nat) : List Byte := (List.range 8).flatMap (fun w => bytesLE 4 (d.reg (aMeas m w)).toNat)

/-- Register m extended with D. -/
def Dev.extend (d : Dev) (m : Nat) (x : List Byte) : Dev :=
  (((chunksOf 4 (sha256 (d.meas m ++ x))).map ofBytesLE).zipIdx).foldl (fun (d : Dev) p => d.setReg (aMeas m p.2) (BitVec.ofNat 32 p.1)) d

/-- Register m extended with what has no stated encoding: 32 free bytes. -/
def Dev.extendFree (d : Dev) (m : Nat) : Dev :=
  let (d1, l) := d.freeBytes 32
  d1.extend m l

/-! ## Trees (R457–R459) -/

/-- The lowest unblown BLOCK bit is blown and its block reserved; bits that fail to verify are skipped (R457). -/
def Dev.blowBlock (d : Dev) (bad : List Nat) : Dev :=
  let t := d.tru
  let d0 := if bad.any (fun b => !t.blocks.contains b) then d.raise (aTru 0) 4 else d
  match (List.range 1024).find? (fun b => !t.blocks.contains b && !bad.contains b) with
  | some b =>
    let bs := setIns t.blocks b
    let d1 := d0.onTru (fun t => { t with blocks := bs, leaf := 1024 * b, leafEnd := 1024 * b + 1024, exhausted := t.exhausted || decide (bs.length = 1024) })
    if bs.length = 1024 then d1.raise (aTru 0) 3 else d1
  | none => (d0.onTru (fun t => { t with leaf := t.leafEnd, exhausted := true })).raise (aTru 0) 3

/-- May a session tree be built: the root tree can sign, the TRNG is healthy, leaves are left? -/
def Trust.maySess (t : Trust) : Bool := t.idOk && t.trngOk && !t.exhausted && !t.erased && decide (t.leaf < t.leafEnd)

/-- A session tree is built and signed with the next root leaf; a block used up is followed by the next at once (R457,
R459). -/
def Dev.newSession (d : Dev) : Dev :=
  let t := d.tru
  if !t.maySess then d.onTru (fun t => { t with sess := none })
  else
    let d1 := d.onTru (fun t => { t with sess := some t.rng, rng := t.rng + 12, sessRoot := t.leaf, sessLeaf := 0, sessNo := t.sessNo + 1, leaf := t.leaf + 1 })
    if t.leaf + 1 = t.leafEnd then d1.blowBlock [] else d1

/-- The device signature of a message (R454): the root's signature of the session key, that key, and the session's
signature; `none` when the device cannot sign. The leaf index advances first, and the last leaf calls for a new tree. -/
def Dev.deviceSign (d : Dev) (msg : List Byte) : Dev × Option (List Byte) :=
  let d0 := if d.tru.sess.isNone then d.newSession else d
  let t := d0.tru
  match t.sess with
  | none => (d0, none)
  | some k =>
    let pub := padTo 56 0 (Config.lmsPublic (k + 1))
    let sig := [0, 0, 0, 1] ++ padTo 2828 0 (Config.lmsSign 0 t.sessRoot pub) ++ pub ++ padTo 2508 0 (Config.lmsSign (k + 1) t.sessLeaf msg)
    let d1 := d0.onTru (fun t => { t with sessLeaf := t.sessLeaf + 1 })
    (if t.sessLeaf = 1023 then d1.newSession else d1, some sig)

/-! ## TRU commands (R467) -/

/-- Address of the buffer. -/
def Dev.truBuf (d : Dev) : Nat := d.addr48 (aTru 0x114) (aTru 0x118) 12

/-- TRU_CMD_STAT of a command that ends. -/
def Dev.truEnd (d : Dev) (op result : Nat) : Dev :=
  ((if result = 0x15 then d.raise (aTru 0) 0 else d).setReg (aTru 0x120) (BitVec.ofNat 32 (result * 256 + op))).showTru

/-- n bytes of the buffer and their poison. -/
def Dev.truRead (d : Dev) (n : Nat) : Dev × List Byte × Bool :=
  let (d1, g) := d.devReadN 0 none d.truBuf n
  (d1, g.data, g.poison)

/-- Bytes 0–591 of a quote (R461). -/
def Dev.quoteBody (d : Dev) (nonce : List Byte) : List Byte :=
  bytesLE 4 1 ++ bytesLE 4 5988 ++ nonce ++ bytesLE 8 d.tick ++ bytesLE 8 Config.serial.toNat ++ bytesLE 4 d.tru.blocks.length
    ++ bytesLE 4 (d.fld (aTru 0x100) 31 24) ++ bytesLE 8 ((d.fw.man.map (fun m => m.version)).getD 0)
    ++ bytesLE 4 ((d.fw.man.map (fun m => m.svn)).getD 0) ++ bytesLE 4 0 ++ (List.range 16).flatMap d.meas

/-- QUOTE (R461, R466). -/
def Dev.quote (d : Dev) : Dev :=
  if d.tru.erased then d.truEnd 1 0x15
  else
    let (d1, nonce, p) := d.truRead 32
    if p then d1.truEnd 1 0x01
    else
      let body := d1.showTru.quoteBody nonce
      let (d2, sig) := d1.deviceSign body
      match sig with
      | some s => (d2.devWriteN 0 none d2.truBuf (body ++ s) false).truEnd 1 0
      | none => d2.truEnd 1 0x15

/-- EXTEND (R460): registers 8–15. -/
def Dev.extendCmd (d : Dev) (m : Nat) : Dev :=
  if m < 8 ∨ 15 < m then d.truEnd 2 0x03
  else
    let (d1, x, p) := d.truRead 32
    if p then d1.truEnd 2 0x01 else (d1.extend m x).truEnd 2 0

/-- DEBUG_CHALLENGE (R465). -/
def Dev.debugChallenge (d : Dev) : Dev :=
  let n := (List.range 8).flatMap (fun i => bytesLE 4 (Config.trng (d.tru.rng + i)).toNat)
  let d1 := d.onTru (fun t => { t with nonce := some n, rng := t.rng + 8 })
  (d1.devWriteN 0 none d1.truBuf n false).truEnd 3 0

/-- Is a debug token accepted (R465)? -/
def Dev.tokenOk (d : Dev) (t : List Byte) : Bool :=
  let w (o n : Nat) : Nat := ofBytesLE ((t.drop o).take n)
  !d.tru.debugOff && d.policy 1 && w 0 4 == 1 && decide (1 ≤ w 4 4) && decide (w 4 4 ≤ 3) && w 8 8 == Config.serial.toNat
    && d.tru.nonce == some ((t.drop 16).take 32) && decide (1 ≤ w 48 4) && w 52 12 == 0
    && Config.lmsVerify d.tru.ownerKey (t.drop 64) (t.take 64)

/-- DEBUG_UNLOCK (R465, R466): FULL first erases the trees. -/
def Dev.debugUnlock (d : Dev) : Dev :=
  let (d1, t, p) := d.truRead 16384
  if p then d1.truEnd 4 0x01
  else if !d1.tokenOk t then d1.truEnd 4 0x15
  else
    let sc := ofBytesLE ((t.drop 4).take 4)
    let d2 := if sc = 3 then d1.onTru (fun t => { t with erased := true, idOk := false, sess := none }) else d1
    ((d2.onTru (fun x => { x with scope := sc, left := ofBytesLE ((t.drop 48).take 4) })).extendFree 6).truEnd 4 0

/-! ### The JTAG port (R465, R472) -/

/-- The scope that opens an instruction of the port; 0: always open. -/
def JtagOp.scope : JtagOp → Nat
  | .bypass | .idcode | .sample => 0
  | .boundary => 1
  | .observe => 2
  | .full => 3

/-- JTAG IDCODE: version 0, part number, manufacturer code, 1 (R472). -/
def jtagIdcode : Word := 0x0#4 ++ 0xA160#16 ++ 0x253#11 ++ 1#1

/-- Does the port take an instruction? FULL also reads (R465, log entry 140). -/
def Trust.jtagTakes (t : Trust) (i : JtagOp) : Bool := i.scope == 0 || t.scope == i.scope || (t.scope == 3 && i.scope == 2)

/-- An instruction shifted into the port: selected, or refused and the one before stays. -/
def Trust.jtagSelect (t : Trust) (i : JtagOp) : Trust := if t.jtagTakes i then { t with tap := i } else t

/-- The 32 bits that the port shifts out under IDCODE. -/
def Trust.jtagData (t : Trust) : Option Word := if t.tap = .idcode then some jtagIdcode else none

/-- The open scope closes, and with it the instruction that it opened (R466). -/
def Trust.close (t : Trust) : Trust := { t with scope := 0, left := 0, tap := if t.tap.scope = 0 then t.tap else .idcode }

/-- DEBUG_LOCK (R466). -/
def Dev.debugLock (d : Dev) : Dev :=
  if d.tru.scope = 0 then d.truEnd 7 0
  else ((d.onTru Trust.close).extendFree 6).truEnd 7 0

/-- DEBUG_EXPIRE (R466). -/
def Dev.debugExpire (d : Dev) : Dev :=
  if d.tru.scope ≠ 0 ∧ d.tru.left = 0 then (d.onTru Trust.close).showTru else d

/-- SET_OWNER (R456): a 60-byte HSS public key at the buffer's start, the signature of its digest after it. -/
def Dev.setOwner (d : Dev) : Dev :=
  let (d1, t, p) := d.truRead 16384
  if p then d1.truEnd 5 0x01
  else
    let dig := sha256 (t.take 60)
    let k := d1.tru.slot
    if k = 4 ∧ (Tbl.look d1.tru.owner 0).isNone then (d1.onTru (fun t => { t with owner := t.owner.put 0 dig })).truEnd 5 0
    else if 3 ≤ k ∨ !Config.lmsVerify d1.tru.ownerKey (t.drop 60) dig then d1.truEnd 5 0x15
    else (d1.onTru (fun t => { t with owner := t.owner.put (k + 1) dig, revoked := setIns t.revoked k })).truEnd 5 0

/-- ADVANCE_SVN (R442). -/
def Dev.advanceSvn (d : Dev) (v : Nat) : Dev :=
  if (d.fw.man.map (fun m => m.svn)).getD 0 < v then d.truEnd 6 0x03
  else (d.onTru (fun t => { t with minSvn := max t.minSvn (min v 64) })).truEnd 6 0

/-! ## Peer identity (R462, R463) -/

/-- What a peer sends in the identity exchange, and its signature of it. -/
structure PeerId where
  key : List Byte
  cert : List Byte
  serial : BitVec 64
  self : Option Word
  nonce : List Byte
  sig : List Byte
  port : Nat
  deriving DecidableEq, Repr

/-- First 64 bits of a key's digest. -/
def keyTag (key : List Byte) : Nat := ofBytesLE ((sha256 key).take 8)

/-- The pin of a port, 0 for none. -/
def Dev.pin (d : Dev) (p : Nat) : Nat := (d.reg (aTruP (0x108 + 0x10 * p))).toNat + (d.reg (aTruP (0x10C + 0x10 * p))).toNat * 2 ^ 32

/-- Is a peer accepted: certificate, signature, pin? -/
def Dev.peerOk (d : Dev) (p : Nat) (x : PeerId) (nonce key : List Byte) : Bool :=
  Config.lmsVerify [] x.cert (bytesLE 8 x.serial.toNat ++ x.key)
    && Config.lmsVerify x.key x.sig (nonce ++ x.nonce ++ key ++ x.key ++ bytesLE 1 p ++ bytesLE 1 x.port)
    && (d.pin p == 0 || d.pin p == keyTag x.key)

/-- The identity exchange of a port (R462): the device signs too; the outcome is recorded. -/
def Dev.peerExchange (d : Dev) (p : Nat) (x : PeerId) : Dev :=
  let nonce := (List.range 8).flatMap (fun i => bytesLE 4 (Config.trng (d.tru.rng + i)).toNat)
  let key := [0, 0, 0, 2] ++ padTo 56 0 (Config.lmsPublic 0)
  let d1 := d.onTru (fun t => { t with rng := t.rng + 8 })
  let (d2, _) := d1.deviceSign (nonce ++ x.nonce ++ key ++ x.key ++ bytesLE 1 p ++ bytesLE 1 x.port)
  if d2.peerOk p x nonce key then
    let d3 := (d2.setReg (aTruP (0x100 + 0x10 * p)) (BitVec.ofNat 32 (keyTag x.key))).setReg (aTruP (0x104 + 0x10 * p)) (BitVec.ofNat 32 (keyTag x.key / 2 ^ 32))
    let d4 : Dev := { d3 with fw := { d3.fw with peers := setIns d3.fw.peers p } }
    (match x.self with
      | some w => if flag w 31 then d4.peerKnown p (setFld w 4 0 x.port) else d4
      | none => d4).showTru
  else
    let d3 := (d2.raise (aTru 0) 0).showTru
    if d3.policy 0 then d3.portHold p else d3

end Sys2Proof.Machine
end

