-- ==== Sys2Proof/Machine/Boot.lean ====
section
/-! DEFINITION. The boot and the firmware loader (15 R435–R453, R468). -/

namespace Sys2Proof.Machine

/-- The loader changed by a function. -/
def Dev.onFw (d : Dev) (f : Firmware → Firmware) : Dev := { d with fw := f d.fw }

/-- FWL_BOOT_STAT.STAGE. -/
def Dev.stage (d : Dev) : Nat := d.fld (aFwl 0x100) 3 0
def Dev.setStage (d : Dev) (n : Nat) : Dev := d.setF (aFwl 0x100) 3 0 n

/-! ## Images (R438–R441) -/

/-- A byte of the flash; an erased one is 0xFF. -/
def Dev.flashAt (d : Dev) (a : Nat) : Byte := Tbl.getD d.fw.flash a 0xFF

/-- The image in the flash, and the one staged, of n bytes. -/
def Dev.flashImage (d : Dev) (n : Nat) : List Byte := (List.range n).map d.flashAt
def Dev.stageImage (d : Dev) (n : Nat) : List Byte := cellsAt d.fw.stage 0 n

/-- Little-endian field of n bytes at an offset. -/
def leAt (l : List Byte) (o n : Nat) : Nat := ofBytesLE ((l.drop o).take n)

/-- The manifest of an image. -/
def parseManifest (l : List Byte) : Manifest :=
  { len := leAt l 8 4, svn := leAt l 12 4, version := leAt l 16 8, policy := leAt l 24 4
    comps := (List.range (min 5 (leAt l 28 4))).map (fun i =>
      ⟨leAt l (64 + 48 * i) 4, leAt l (68 + 48 * i) 4, leAt l (72 + 48 * i) 4, (l.drop (80 + 48 * i)).take 32⟩) }

/-- A component by its type. -/
def Manifest.comp (m : Manifest) (t : Nat) : Option FwComp := m.comps.find? (fun c => c.type == t)

/-- Is a manifest well formed (R440)? -/
def manifestForm (l : List Byte) : Bool :=
  let m := parseManifest l
  leAt l 0 4 == 0x314D544C && leAt l 4 4 == 1 && decide (16384 ≤ m.len) && decide (m.len ≤ 4194304) && decide (m.svn ≤ 64)
    && decide (m.policy < 4) && decide (3 ≤ leAt l 28 4) && decide (leAt l 28 4 ≤ 5) && leAt l 32 32 == 0
    && (List.range (leAt l 28 4)).all (fun i => leAt l (76 + 48 * i) 4 == 0)
    && m.comps.all (fun c => decide (1 ≤ c.type) && decide (c.type ≤ 5) && decide (c.off + c.len ≤ m.len))
    && !hasTwice (m.comps.map (fun c => c.type)) && [1, 2, 3].all (fun t => (m.comp t).isSome)
    && decide (((m.comp 1).map (fun c => c.len)).getD 0 + ((m.comp 2).map (fun c => c.len)).getD 0 ≤ 2097152)
    && leAt l 304 3792 == 0

/-- A signature field: its length, then the signature. -/
def sigField (l : List Byte) (o : Nat) : List Byte := (l.drop (o + 4)).take (leAt l o 4)

/-- Do both signatures of a manifest verify (R441)? -/
def Dev.sigsOk (d : Dev) (l : List Byte) : Bool :=
  Config.lmsVerify [] (sigField l 4096) (l.take 4096)
    && (d.tru.slot == 4 || Config.lmsVerify d.tru.ownerKey (sigField l 10240) (l.take 4096))

/-- Why a manifest is not accepted: a signature, or a form or SVN for which no code is stated. -/
inductive BootBad where
  | sig | form | flash
  deriving DecidableEq, Repr

/-- R441's checks of a manifest. -/
def Dev.manifestBad (d : Dev) (l : List Byte) : Option BootBad :=
  if !manifestForm l then some .form
  else if !d.sigsOk l then some .sig
  else if (parseManifest l).svn < d.tru.minSvn then some .form
  else none

/-- Does a component match its digest? -/
def compOk (l : List Byte) (c : FwComp) : Bool := sha256 ((l.drop c.off).take c.len) == c.digest

/-- The shared code of a failure; where none is stated, a free one of the table's codes but OK (R14). -/
def Dev.badCode (d : Dev) (b : BootBad) : Dev × Nat :=
  match b with
  | .sig => (d, 0x15)
  | .flash => (d, 0x09)
  | .form => (d.useFree, (Config.freeValue d.free).toNat % 0x15 + 1)

/-- The boot enters RECOVERY_WAIT (R441). -/
def Dev.recoveryWait (d : Dev) (why : Option BootBad) : Dev :=
  let d1 := (d.setStage 0xE).raise (aFwl 0) 4
  match why with
  | none => d1
  | some b =>
    let (d2, c) := d1.badCode b
    (d2.setF (aFwl 0x100) 15 8 c).raise (aFwl 0) (if b = .flash then 2 else 0)

/-! ## Boot stages (R435) -/

/-- BOOT_FUSE: fuse sensing, TRNG health, PLLs locked. A second failed sensing ends in HALT (R437). Core memory powers up
and is cleared (R206). -/
def Dev.bootFuse (d : Dev) (ok trng : Bool) : Dev :=
  if d.pw.railHold ∨ d.fw.fuseOk ∨ 1 < d.stage then d
  else if !ok then
    let d1 := (d.onFw (fun f => { f with fuseFails := f.fuseFails + 1 })).raise (aTru 0) 4
    d1.setStage (if 2 ≤ d1.fw.fuseFails then 0xF else 1)
  else
    let d1 := ((d.setStage 1).onFw (fun f => { f with fuseOk := true })).onTru (fun t => { t with trngOk := trng })
    let d2 := ((if trng then d1 else d1.raise (aTru 0) 1).setReg (aClk 0x100) 0x37F).putB (aAon 0x108) 0 true
    (allCores.foldl Dev.cmemClear d2).showTru

/-- The PCIe link as it comes up, and the function's configuration as the host leaves it (R361, R363, R366, R368). -/
structure PcieUp where
  flit : Bool
  lanes : Nat
  rate : Nat
  bme : Bool
  msix : Bool
  bar2 : Nat
  aerMask : BitVec 32
  deriving DecidableEq, Repr

/-- HIF_LINK_STAT and the function's state; a partner without Flit mode leaves the link down (R361). -/
def Dev.pcieUp (d : Dev) (x : PcieUp) : Dev :=
  let d1 := d.setReg (aHif 0x100) (BitVec.ofNat 32 (if x.flit then 0xC00 + x.lanes % 64 * 16 + x.rate % 16 else 0x1000))
  { d1 with cb := { d1.cb with up := x.flit, bme := x.flit && x.bme, bar2 := max 30 (min 41 x.bar2), aerMask := x.aerMask.toNat }, msixEn := x.flit && x.msix }

/-- FWL_VER and TRU_SVN of the running manifest, whose bytes extend register 1 (R460). -/
def Dev.runManifest (d : Dev) (l : List Byte) : Dev :=
  let m := parseManifest l
  let d1 := ((d.onFw (fun f => { f with man := some m })).setReg (aFwl 0x108) (BitVec.ofNat 32 m.version)).setReg (aFwl 0x10C) (BitVec.ofNat 32 (m.version / 2 ^ 32))
  (d1.extend 1 (l.take 4096)).showTru

/-- The image that boots. -/
def Dev.bootImage (d : Dev) : List Byte :=
  if d.fw.pushed then d.stageImage (d.fld (aFwl 0x118) 22 0) else d.flashImage 4194304

/-- BOOT_MANIFEST; `flash`: the flash answers; BLOCK bits that fail to verify. -/
def Dev.bootManifest (d : Dev) (flash : Bool) (bad : List Nat) (x : PcieUp) : Dev :=
  if !d.fw.fuseOk ∨ d.stage ≠ 1 then d
  else
    let d1 := (d.setStage 2).pcieUp x
    let d2 := if d1.fw.cold then d1.blowBlock bad else d1
    if d2.fw.recover then (d2.onFw (fun f => { f with recover := false })).recoveryWait none
    else if !flash then d2.recoveryWait (some .flash)
    else match d2.manifestBad (d2.flashImage 16384) with
      | some b => d2.recoveryWait (some b)
      | none => ((d2.extendFree 0).runManifest (d2.flashImage 16384)).putB (aFwl 0x100) 29 true

/-- Components of the types listed are read: all match their digests, or the boot waits for recovery; each extends its
register (R441, R460). -/
def Dev.bootComps (d : Dev) (ts : List Nat) (flash : Bool) (k : Dev → Dev) : Dev :=
  let cs := ts.filterMap (fun t => d.fw.man.bind (fun m => m.comp t))
  if !flash ∧ !d.fw.pushed then d.recoveryWait (some .flash)
  else if cs.all (compOk d.bootImage) then k (cs.foldl (fun d c => d.extend (min 5 (c.type + 1)) c.digest) d)
  else d.recoveryWait (some .sig)

/-- BOOT_MP_LOAD. -/
def Dev.bootMpLoad (d : Dev) (flash : Bool) : Dev :=
  if d.stage ≠ 2 ∨ d.fw.man.isNone then d else (d.setStage 3).bootComps [1, 2] flash id

/-- What BOOT_TRAIN finds: cores that fail self-test, link bits and spares of each bridge side, stacks that fail, lanes
usable on each port, the flash. -/
structure TrainFacts where
  cores : List Nat
  /-- By side of the bridge and row: failed wires of the row link and of the chain link (R45). -/
  wires : List (List (Nat × Nat))
  stackT : List Nat
  lanes : List Nat
  flash : Bool
  deriving DecidableEq, Repr

/-- The identity cache as the flash holds it (R439). -/
def Dev.idCache (d : Dev) : List Byte := (List.range 65504).map (fun i => d.flashAt (0x400000 + i))

/-- The root tree: the identity cache checked against the fuses and the subtree (R458); then a session tree (R459). -/
def Dev.bootTrees (d : Dev) : Dev :=
  if Config.cacheRootOk d.idCache && Config.cacheNodeOk d.idCache (d.tru.leaf / 1024) then
    ((d.onTru (fun t => { t with idOk := true })).newSession).showTru
  else ((d.onTru (fun t => { t with cacheBad := true })).raise (aTru 0) 2).showTru

/-- Spare wires of a link (R45). -/
def spareWires : Nat := 16

/-- Rows of which a link has more failed wires than spares: it runs at half width (R45). -/
def halfRows (l : List (Nat × Nat)) : List Nat :=
  (List.range l.length).filter (fun r => decide (spareWires < (l.getD r (0, 0)).1) || decide (spareWires < (l.getD r (0, 0)).2))

/-- Spare wires in use on a side. -/
def sparesUsed (l : List (Nat × Nat)) : Nat := (l.map (fun p => min p.1 spareWires + min p.2 spareWires)).sum

/-- The bridge after its wire test (R45, R49). -/
def Dev.bootBridge (d : Dev) (x : TrainFacts) : Dev :=
  [0, 1].foldl (fun (d : Dev) s =>
    let l := x.wires.getD s []
    let h := (halfRows l).foldl (fun n r => n + 2 ^ r) 0
    ((d.setReg (aBrg s 0x100) (BitVec.ofNat 32 (65536 * h + 0x1FFF))).setReg (aBrg s 0x104) (BitVec.ofNat 32 (sparesUsed l % 1024))).owlEv 5
      (halfRows l).length) d

/-- The stacks after their training (R226, R245). -/
def Dev.bootStacks (d : Dev) (bad : List Nat) : Dev :=
  (List.range 16).foldl (fun d i =>
    let t := nextDue d.tick (d.fld (aHmc i 0x120) 23 0) d.hmcPeriod
    let d1 := d.putStack i { trained := true, due := t, orig := t }
    if bad.contains i then d1.holdStack i else d1) d

/-- The ports that train; they carry nothing before they qualify (R447, R449). -/
def Dev.bootPorts (d : Dev) (lanes : List Nat) : Dev :=
  let d1 := (List.range 24).foldl Dev.portTrain d
  d1.onFw (fun f => { f with lanes := (List.range 24).foldl (fun t p => Tbl.store 0 t p (lanes.getD p 0 % 16)) [] })

/-- BOOT_TRAIN. -/
def Dev.bootTrain (d : Dev) (x : TrainFacts) : Dev :=
  if d.stage ≠ 3 then d
  else ((((((d.setStage 4).onFw (fun f => { f with badCores := x.cores.foldl setIns [] })).bootBridge x).bootStacks x.stackT).bootPorts x.lanes)).bootComps
    [3, 4, 5] x.flash Dev.bootTrees

/-! ## Loading the cores (R444, R445) -/

/-- Bit of core c in FWL_CORE_CUR and FWL_CORE_LOADING. -/
def Dev.setCur (d : Dev) (c : Nat) (b : Bool) : Dev := d.putB (aFwl (0x140 + c / 32 * 4)) (c % 32) b
def Dev.setLoading (d : Dev) (c : Nat) (b : Bool) : Dev := d.putB (aFwl (0x180 + c / 32 * 4)) (c % 32) b
def Dev.loading (d : Dev) (c : Nat) : Bool := d.bit (aFwl (0x180 + c / 32 * 4)) (c % 32)

/-- FWL_PEND_CNT. -/
def Dev.setDue (d : Dev) (l : List Nat) : Dev := (d.onFw (fun f => { f with coresDue := l })).setReg (aFwl 0x12C) (BitVec.ofNat 32 l.length)

/-- A component has taken effect: its digest extends its register (R451, R460). -/
def Dev.tookEffect (d : Dev) (t : Nat) : Dev :=
  match d.fw.man.bind (fun m => m.comp t) with
  | some c => d.extend (min 5 (t + 1)) c.digest
  | none => d

/-- A core no longer waits for the core image; the last one lets the component take effect. -/
def Dev.notDue (d : Dev) (c : Nat) : Dev :=
  if d.fw.coresDue.contains c then
    let d1 := d.setDue (setDel d.fw.coresDue c)
    if d1.fw.coresDue.isEmpty then d1.tookEffect 3 else d1
  else d

/-- A core holds every chunk. -/
def Dev.coreLoaded (d : Dev) (c : Nat) : Dev := ((d.setCur c true).setLoading c false).notDue c

/-- A core that stays without chunks is not good: FENCED_BOOT at boot, a fence later (R445). -/
def Dev.coreUnloaded (d : Dev) (c : Nat) : Dev :=
  let d1 := ((d.inc (aFwl 0x124)).raise (aFwl 0) 1).onFw (fun f => { f with badCores := setIns f.badCores c })
  let d2 := (d1.setLoading c false).notDue c
  if d2.ready then d2.askFence c else d2

/-- A core after the broadcast, with the chunks it misses. -/
def Dev.coreGot (d : Dev) (c : Nat) (miss : List Nat) : Dev :=
  if miss.isEmpty then d.coreLoaded c
  else d.onFw (fun f => { f with missing := f.missing.put c miss, rounds := f.rounds.put c 0 })

/-- BOOT_CORE_LOAD: the broadcast to every core that passed self-test, with what each misses. -/
def Dev.bootCoreLoad (d : Dev) (miss : List (Nat × Nat)) : Dev :=
  if d.stage ≠ 4 then d
  else (allCores.filter (fun c => !d.fw.badCores.contains c)).foldl
    (fun d c => d.coreGot c ((miss.filter (fun p => p.1 == c)).map (fun p => p.2))) (d.setStage 5)

/-- CHUNK_RESEND_ROUND of a core, with the chunks that still fail: at most 8 rounds. -/
def Dev.chunkResend (d : Dev) (c : Nat) (bad : List Nat) : Dev :=
  match Tbl.look d.fw.missing c with
  | none => d
  | some l =>
    let n := d.fw.rounds.getD c 0 + 1
    let left := l.filter (fun k => bad.contains k)
    let d1 := (d.inc (aFwl 0x128) l.length).onFw (fun f => { f with
      missing := if left.isEmpty ∨ 8 ≤ n then f.missing.del c else f.missing.put c left
      rounds := if left.isEmpty ∨ 8 ≤ n then f.rounds.del c else f.rounds.put c n })
    if left.isEmpty then d1.coreLoaded c else if 8 ≤ n then d1.coreUnloaded c else d1

/-! ## Qualification, peers, ready -/

/-- What a lane's 200 ms test counts (R448): bit errors before FEC, uncorrectable codewords. -/
structure LaneTest where
  errs : Nat
  ue : Nat
  deriving DecidableEq, Repr

/-- Does a lane pass? -/
def LaneTest.pass (t : LaneTest) : Bool := decide (t.errs < 425000) && t.ue == 0

/-- BOOT_QUALIFY: tests by 4 × port + lane. -/
def Dev.bootQualify (d : Dev) (tests : List LaneTest) : Dev :=
  if d.stage ≠ 5 ∨ d.fw.missing.isEmpty = false then d
  else (List.range 24).foldl (fun d p =>
    let m := ((List.range 4).filter (fun i => bitN (d.fw.lanes.getD p 0) i && ((tests[4 * p + i]?).map LaneTest.pass).getD true)).foldl (fun n i => n + 2 ^ i) 0
    d.portTrained p m) (d.setStage 6)

/-- BOOT_PEER: the exchange on a qualified port, at boot or after it trains again (R449, R462). -/
def Dev.bootPeer (d : Dev) (p : Nat) (x : PeerId) : Dev :=
  if d.stage < 6 ∨ 8 < d.stage ∨ !(d.port p).up then d
  else (if d.stage = 6 then d.setStage 7 else d).peerExchange p x

/-- The floor plan as the boot leaves it (R18–R21): by die row the 12 westmost good cores active, a 13th the spare. -/
def Dev.bootPlan (d : Dev) : Dev :=
  (List.range 24).foldl (fun (d : Dev) i =>
    let row := dieRow (13 * i)
    let good := row.filter (fun c => !d.fw.badCores.contains c)
    (row.foldl (fun (d : Dev) c => d.setFp c (match good.idxOf? c with
      | some k => if k < 12 then 0 else 1
      | none => 2)) d).assignRow (13 * i)) d

/-- BOOT_READY (R22, R437). -/
def Dev.bootReady (d : Dev) : Dev :=
  if d.stage ≠ 6 ∧ d.stage ≠ 7 then d
  else
    let d1 := (d.bootPlan).fpSum
    let d2 := ((d1.setStage 8).putB (aFwl 0x100) 31 true).setReg (aFwl 0x104) (BitVec.ofNat 32 (d.tick - d.fw.bootT))
    d2.publish.source (aFwl 0) 0 (d2.fld (aFwl 0x100) 26 16)

/-! ## FWL commands (R443, R450–R453, R468) -/

/-- FWL_CMD_STAT. -/
def Dev.showFwl (d : Dev) (op result : Nat) : Dev :=
  d.setReg (aFwl 0x114) (BitVec.ofNat 32 (b2n d.fw.writing * 2 ^ 31 + b2n d.fw.verified * 2 ^ 30 + result % 256 * 256 + op))

/-- A command while BUSY is set is ignored (R453). -/
def Dev.fwCmd (d : Dev) (f : Dev → Dev) : Dev := if d.fw.writing then d.raise (aFwl 0) 3 else f d

/-- FWL_STAGE_LEN. -/
def Dev.stageLen (d : Dev) : Nat := d.fld (aFwl 0x118) 22 0

/-- STAGE_CHUNK i (R443): the data window's 4 KiB. -/
def Dev.stageChunk (d : Dev) (i : Nat) : Dev :=
  d.fwCmd (fun d => (d.onFw (fun f => { f with stage := cellsPut f.stage (4096 * i) (cellsAt f.window 0 4096), verified := false })).showFwl 1 0)

/-- STAGE_HBM (R450): a length over 4 MiB is refused; poison ends it with UE_MEM. -/
def Dev.stageHbm (d : Dev) : Dev :=
  d.fwCmd (fun d =>
    let d0 := d.onFw (fun f => { f with verified := false })
    if 4194304 < d.stageLen then d0.showFwl 2 0x03
    else
      let (d1, g) := d0.devReadN 0 none (d.addr48 (aFwl 0x11C) (aFwl 0x120) 12) d.stageLen
      if g.poison then d1.showFwl 2 0x09
      else (d1.onFw (fun f => { f with stage := cellsPut f.stage 0 g.data })).showFwl 2 0)

/-- What VERIFY finds in the staged image, as R441. -/
def Dev.stageBad (d : Dev) : Option BootBad :=
  let l := d.stageImage d.stageLen
  match d.manifestBad l with
  | some b => some b
  | none => if (parseManifest l).comps.all (compOk l) then none else some .sig

/-- VERIFY (R443, R450). -/
def Dev.fwVerify (d : Dev) : Dev :=
  d.fwCmd (fun d => match d.stageBad with
    | none => (d.onFw (fun f => { f with verified := true })).showFwl 3 0
    | some b =>
      let (d1, c) := d.badCode b
      (d1.onFw (fun f => { f with verified := false })).showFwl 3 c)

/-- WRITE_FLASH (R452): the image slot is erased first, and holds no valid manifest until it is programmed. -/
def Dev.writeFlash (d : Dev) : Dev :=
  d.fwCmd (fun d =>
    if !d.fw.verified then d.showFwl 4 0x03
    else (((d.onFw (fun f => { f with flash := f.flash.filter (fun p => decide (0x400000 ≤ p.1)), writing := true })).putB (aFwl 0x100) 29 false).extendFree 7).showFwl 4 0)

/-- Bytes written to the flash. -/
def flashPut : List Host.Cell → Nat → List Byte → List Host.Cell
  | m, _, [] => m
  | m, a, b :: t => flashPut (Tbl.store 0xFF m a b) (a + 1) t

/-- FLASH_WRITE_DONE; `ok`: the flash answered. -/
def Dev.flashDone (d : Dev) (ok : Bool) : Dev :=
  if !d.fw.writing then d
  else
    let d1 := d.onFw (fun f => { f with writing := false })
    if ok then ((d1.onFw (fun f => { f with flash := flashPut f.flash 0 (d.stageImage d.stageLen) })).putB (aFwl 0x100) 29 true).showFwl 4 0
    else (d1.raise (aFwl 0) 2).showFwl 4 0x09

/-- Types whose digest differs in a new manifest (R451). -/
def changedComps (old : Option Manifest) (new_ : Manifest) : List Nat :=
  (new_.comps.filter (fun c => (old.bind (fun m => m.comp c.type)).map (fun x => x.digest) != some c.digest)).map (fun c => c.type)

/-- Live replacement of one component. -/
def Dev.replaceComp (d : Dev) (t : Nat) : Dev :=
  match t with
  | 3 => (allCores.foldl (fun d c => d.setCur c false) d).setDue (allCores.filter (fun c => !d.fenced c))
  | 4 =>
    let l := (List.range 24).filter (fun p => (d.port p).up)
    if l.isEmpty then d.tookEffect 4 else d.onFw (fun f => { f with lanesDue := l.map (fun p => (p, (d.port p).width)) })
  | 5 =>
    let l := (List.range 16).filter (fun i => (d.stack i).trained && !(d.stack i).held)
    if l.isEmpty then d.tookEffect 5 else d.onFw (fun f => { f with stacksDue := l })
  | _ => d.tookEffect t

/-- ACTIVATE (R443, R450, R451). -/
def Dev.activate (d : Dev) : Dev :=
  d.fwCmd (fun d =>
    if !d.fw.verified then d.showFwl 5 0x03
    else
      let l := d.stageImage d.stageLen
      if d.stage = 0xE then
        let d1 := (d.onFw (fun f => { f with pushed := true, bootT := d.tick })).setStage 2
        ((((d1.extendFree 0).runManifest l).extendFree 7).putB (aFwl 0x100) 30 true).showTru.showFwl 5 0
      else ((changedComps d.fw.man (parseManifest l)).foldl Dev.replaceComp (d.runManifest l)).showFwl 5 0)

/-- CORE_IMAGE_RELOAD (R451): a core outside every job, one at a time, with the chunks it misses after the send. -/
def Dev.coreReload (d : Dev) (c : Nat) (miss : List Nat) : Dev :=
  if !d.fw.coresDue.contains c ∨ (d.core c).job.isSome ∨ d.fenced c ∨ allCores.any d.loading then d
  else (d.setLoading c true).coreGot c miss

/-- FORCE_RECOVERY (R441). -/
def Dev.forceRecovery (d : Dev) : Dev := d.fwCmd (fun d => (d.onFw (fun f => { f with recover := true })).showFwl 6 0)

/-- WRITE_IDCACHE (R452, R458). -/
def Dev.writeIdCache (d : Dev) : Dev :=
  d.fwCmd (fun d =>
    let l := d.stageImage 65504
    if Config.cacheRootOk l then ((d.onFw (fun f => { f with flash := flashPut f.flash 0x400000 l })).extendFree 7).showFwl 7 0
    else d.showFwl 7 0x15)

/-- ABORT: the staged image is abandoned. -/
def Dev.fwAbort (d : Dev) : Dev := d.fwCmd (fun d => (d.onFw (fun f => { f with stage := [], verified := false })).showFwl 8 0)

/-- A write of the data window (R443, R468): discarded while BUSY is set. -/
def Dev.windowWrite (d : Dev) (off : Nat) (data : List Byte) : Dev :=
  if d.fw.writing then d else d.onFw (fun f => { f with window := cellsPut f.window off data })

/-- A port's window replaces its table on one lane (R451). -/
def Dev.portTables (d : Dev) (p : Nat) : Dev :=
  match Tbl.look d.fw.lanesDue p with
  | none => d
  | some n =>
    let d1 := d.onFw (fun f => { f with lanesDue := if n ≤ 1 then f.lanesDue.del p else f.lanesDue.put p (n - 1) })
    if d1.fw.lanesDue.isEmpty then d1.tookEffect 4 else d1

/-- A stack's window replaces its table (R451). -/
def Dev.stackTables (d : Dev) (i : Nat) : Dev :=
  if d.fw.stacksDue.contains i then
    let d1 := d.onFw (fun f => { f with stacksDue := setDel f.stacksDue i })
    if d1.fw.stacksDue.isEmpty then d1.tookEffect 5 else d1
  else d

/-- SLP_CAL_WINDOW, and a CAL_START received, with what a table replacement does in the window. -/
def Dev.slpWindowFw (d : Dev) (p : Nat) : Dev :=
  let d1 := d.slpWindow p
  if (d1.port p).window && !(d.port p).window then d1.portTables p else d1
def Dev.linkReceiveFw (d : Dev) (p op h : Nat) (e : FecErrs) : Dev :=
  let d1 := d.linkReceive p op h e
  if (d1.port p).window && !(d.port p).window then d1.portTables p else d1

/-- HMC_CAL_WINDOW with the same. -/
def Dev.hmcWindowFw (d : Dev) (i : Nat) (pass : Bool) (temp odecc : Nat) : Dev :=
  let d1 := d.hmcWindow i pass temp odecc
  if (d1.stack i).window && !(d.stack i).window then d1.stackTables i else d1

end Sys2Proof.Machine
end

