-- ==== Sys2Proof/Machine/RegWrite.lean ====
section
/-! DEFINITION. Writes and reads of BAR0 (00 R8, R9, R12, R13, R490; 14 R424; 13 R368; 15 R436): which page serves an
access, when a block is quiesced, the fields of a write by their access types, registers with a behaviour of their
own. -/

namespace Sys2Proof.Machine

/-! ## Service -/

/-- Pages served before READY (R436). -/
def PageKind.early : PageKind → Bool
  | .fwl | .fwlData | .truMain | .truPeers | .aon | .msix => true
  | _ => false

/-- Pages that wake nothing (R408). -/
def PageKind.awake : PageKind → Bool
  | .pwr | .aon => true
  | _ => false

/-- Is a page's block being reset: a core's four pages, and by a compute reset every core's and the DMA blocks' (R420,
R421, R489)? -/
def Dev.inResetPage (d : Dev) (p : Page) : Bool :=
  match p.kind with
  | .cctl | .pln | .strm | .cmem => d.bit (aRst 0x10C) 0 || (d.core p.n).inReset
  | .dma => d.bit (aRst 0x10C) 0
  | _ => false

/-- Does a page serve an access now? An access to a page that is asleep or being reset waits for its part (R408, R421);
before READY other pages ignore writes (R436). -/
def Dev.servesPage (d : Dev) (p : Page) : Bool :=
  !d.pw.railHold && (p.kind.early || d.ready) && (p.kind.awake || d.clockOn) && !d.inResetPage p

/-- Does an address of BAR0 serve an access now? -/
def Dev.serves (d : Dev) (a : Nat) : Bool :=
  match pageOf a with
  | none => false
  | some p => d.servesPage p

/-! ## Quiesce (R424) -/

/-- EN of a page's BLK_CTRL. -/
def Dev.pageEn (d : Dev) (base : Nat) : Bool := d.bit (base + 8) 0

/-- Has the fabric work in progress? -/
def Dev.fabBusy (d : Dev) : Bool := !(d.fab.sends.isEmpty && d.fab.tags.isEmpty && d.fab.out.isEmpty)

/-- Does either stream of a core run or stand stopped? -/
def Core.active (k : Core) : Bool := [k.x.st, k.a.st].any (fun s => s == .running || s == .stopped)

/-- Has a page's block ended its work in progress (R424)? -/
def Dev.pageIdle (d : Dev) (p : Page) : Bool :=
  match p.kind with
  | .noc => d.redBuf.isEmpty && d.redFly.isEmpty
  | .sqr => d.sqrCopy.isEmpty && d.hwSends.isEmpty && d.sqrJobs.all (fun q => q.2.st != .running && q.2.st != .merging && q.2.phase == 0)
  | .slp => (d.port p.n).replay.isEmpty && !(d.port p.n).training
  | .fabMain | .fabJobs | .fabRank | .fabColl => !d.fabBusy
  | .fabRings => d.fab.rings.all (fun r => r.2.st == .idle)
  | .dma => (List.range 8).all (fun i => (d.chan (8 * p.n + i)).st == .idle || (d.chan (8 * p.n + i)).st == .disabled)
  | .cmdMain => d.cb.paused
  | .cmdSq => (List.range 240).all (fun i => !d.bit (aSq (240 * p.n + i) 8) 31)
  | .strm | .cctl => !(d.core p.n).active
  | .pln | .cmem => let k := d.core p.n; !k.active && k.flight.isEmpty && k.issue.isEmpty && k.drain.isNone && k.drains.isEmpty && k.trans.isEmpty
  | .glbStep | .glbStash => (List.range 64).all d.jobQuiet
  | .fwl => !d.fw.writing
  | _ => true

/-- Are the quiesce-only fields of a register writable: as its chapter says, else EN = 0 and the work ended (R424; R269,
R325, R307, R369, R198, R400, R463)? -/
def Dev.quiet (d : Dev) (p : Page) (base off : Nat) : Bool :=
  match p.kind with
  | .glbStep => d.jobQuiet ((off - 0x200) / 0x30)
  | .glbStash => d.jobQuiet ((off - 0x200) / 0x20)
  | .dma => let s := (d.chan (8 * p.n + (off - 0x200) / 0x40)).st; s == .idle || s == .disabled
  | .fabRings => (d.ring ((off - 0x100) / 0x20)).st == .idle
  | .cmdMain => d.cb.paused
  | .cmdSq => !d.bit (aSq (240 * p.n + (off - 0x100) / 16) 8) 31
  | .strm => d.pageIdle p
  | .truPeers => !(d.port ((off - 0x100) / 0x10)).up
  | _ => !d.pageEn base && d.pageIdle p

/-! ## Fields (R12, R490) -/

/-- Bits of a mask taken from a written value. -/
def merge (old v : Word) (mask : Nat) : Word := (old &&& ~~~ BitVec.ofNat 32 mask) ||| (v &&& BitVec.ofNat 32 mask)

/-- Bits of a mask as they are stored, with the bounds that a register's table gives. -/
def stored (k : PageKind) (off : Nat) (old v : Word) (mask : Nat) : Word := merge old (storedAs k off (merge old v mask)) mask

/-- Base of the page of an address. -/
def pageBase (a : Nat) : Nat := a - a % 0x1000

/-- A write of shadowed fields: ignored with LATE while the page is armed (R426), else it goes to the shadow. A set
checker lane's fence stays set (R111). -/
def Dev.shadowWrite (d : Dev) (k : PageKind) (a : Nat) (v : Word) (mask : Nat) : Dev :=
  if mask = 0 then d
  else if d.armedFor (pageBase a) ≠ 0 then d.putB (pageBase a + 0x28) 15 true
  else
    let old := d.shad a
    let w := stored k (a % 0x1000) old (if k = .pln ∧ a % 0x1000 = 0x124 then v ||| old else v) mask
    { d with shadow := if w = d.reg a then d.shadow.del a else d.shadow.put a w }

/-- A write applied field by field: live and, when quiesced, quiesce-only fields; 1s of W1C fields, but of bits that an event
sets in the same cycle; shadows (R12, R13, R490). -/
def Dev.writeFields (d : Dev) (k : PageKind) (r : RegRow) (a : Nat) (v : Word) (quiet : Bool) : Dev :=
  let m := r.rw ||| (if quiet then r.rwq else 0)
  let d1 := if m = 0 then d else d.setReg a (stored k (a % 0x1000) (d.reg a) v m)
  let d2 := if r.w1c = 0 then d1 else d1.setReg a (d1.reg a &&& ~~~ (v &&& BitVec.ofNat 32 r.w1c &&& ~~~ d1.eventBits a))
  d2.shadowWrite k a v r.rws

/-- A write of a register with no behaviour of its own (R490); a reserved offset ignores it (R9). -/
def Dev.plainWrite (d : Dev) (p : Page) (a : Nat) (v : Word) : Dev :=
  match rowOf p (a % 0x1000) with
  | none => d
  | some r => d.writeFields p.kind r a v (d.quiet p (pageBase a) (a % 0x1000))

/-! ## The common header (R11, R424) -/

/-- BLK_CTRL: EN = 1 follows RWQ, the rest is taken in any state; SOFT_RST and FENCE act in CCTL (R420, R343). -/
def Dev.blkCtrl (d : Dev) (p : Page) (base : Nat) (v : Word) : Dev :=
  let d1 := if flag v 0 then (if d.pageIdle p then d.putB (base + 8) 0 true else d) else d.putB (base + 8) 0 false
  if p.kind = .cctl then
    let d2 := if flag v 2 then d1.fenceRequest p.n else d1
    if flag v 1 then d2.rstCore p.n else d2
  else d1.putB (base + 8) 2 (flag v 2)

/-- CFG_COMMIT (R425, R426). -/
def Dev.commitWrite (d : Dev) (base : Nat) (v : Word) : Dev :=
  if Machine.fld v 15 0 = 0 then d.disarm base else d.commit base (Machine.fld v 15 0)

/-! ## Registers with a behaviour of their own -/

/-- A dword of the MSI-X table (R368): address, data, and the mask bit of each vector's control; unmasking sends a
pending message. The PBA is read-only. -/
def Dev.msixWrite (d : Dev) (off : Nat) (v : Word) : Dev :=
  if 0x8000 ≤ off then d
  else
    let i := off / 4
    let w := if i % 4 = 0 then v &&& 0xFFFFFFFC else if i % 4 = 3 then v &&& 1 else v
    let d1 : Dev := { d with msix := d.msix.store (if i % 4 = 3 then 1 else 0) i w }
    if i % 4 = 3 ∧ w = 0 ∧ d.pba.contains (i / 4) then ({ d1 with pba := setDel d1.pba (i / 4) } : Dev).sendMsix (i / 4) else d1

/-- RST page (R433, R420, R428): a write of WARM and COMPUTE takes the wider reset (R423). -/
def Dev.rstWrite (d : Dev) (p : Page) (a : Nat) (v : Word) : Dev :=
  match a % 0x1000 with
  | 0x100 => if flag v 0 then d.warmCtrl (Machine.fld v 31 16) else if flag v 1 then d.computeCtrl (Machine.fld v 31 16) else d
  | 0x104 => if flag v 31 ∧ Machine.fld v 8 0 < 312 then d.rstCore (Machine.fld v 8 0) else d
  | 0x108 => if flag v 31 then d.rstJob (Machine.fld v 5 0) else d
  | 0x118 => d.epochReq (flag v 31) (Machine.fld v 21 16) (Machine.fld v 15 0)
  | _ => d.plainWrite p a v

/-- OWL pages (R346, R348, R349, R359): a write that reaches the ring's registers restarts the ring. -/
def Dev.owlWrite (d : Dev) (p : Page) (a : Nat) (v : Word) : Dev :=
  match a % 0x1000 with
  | 0x110 =>
    let d1 := if flag v 0 then d.forceSnap else d
    let d2 := if flag v 1 then d1.clrSpare else d1
    if flag v 2 then d2.forceFence else d2
  | 0x118 | 0x11C | 0x120 => if d.quiet p (pageBase a) (a % 0x1000) then (d.plainWrite p a v).owlRestart else d
  | 0x124 => (d.plainWrite p a v).owlHead (Machine.fld v 15 0)
  | _ => d.plainWrite p a v

/-- SQR_CTRL (R360): a CMD of no name breaks R357 and R358. -/
def Dev.sqrWrite (d : Dev) (p : Page) (a : Nat) (v : Word) : Dev :=
  if a % 0x1000 = 0x120 then
    let n := Machine.fld v 13 8
    match Machine.fld v 3 0 with
    | 1 => d.sqrStart n
    | 2 => d.sqrRollback n
    | 3 => d.prepare n
    | 4 => d.push n
    | 5 => d.sqrSend n
    | 6 => d.reparity n
    | _ => (d.sqrCtrl n).sqrBad
  else d.plainWrite p a v

/-- TRU_CMD (R467); an OP of no name sets CMD_BAD. -/
def Dev.truWrite (d : Dev) (p : Page) (a : Nat) (v : Word) : Dev :=
  if a % 0x1000 = 0x11C then
    match Machine.fld v 3 0 with
    | 1 => d.quote
    | 2 => d.extendCmd (Machine.fld v 19 16)
    | 3 => d.debugChallenge
    | 4 => d.debugUnlock
    | 5 => d.setOwner
    | 6 => d.advanceSvn (Machine.fld v 31 16)
    | 7 => d.debugLock
    | _ => d.raise (aTru 0) 5
  else d.plainWrite p a v

/-- FWL_CMD (R468); an OP of no name sets CMD_BAD. -/
def Dev.fwlWrite (d : Dev) (p : Page) (a : Nat) (v : Word) : Dev :=
  if a % 0x1000 = 0x110 then
    match Machine.fld v 3 0 with
    | 1 => d.stageChunk (Machine.fld v 25 16)
    | 2 => d.stageHbm
    | 3 => d.fwVerify
    | 4 => d.writeFlash
    | 5 => d.activate
    | 6 => d.forceRecovery
    | 7 => d.writeIdCache
    | 8 => d.fwAbort
    | _ => d.raise (aFwl 0) 3
  else d.plainWrite p a v

/-- Registers of a DMA channel (R252, R264, R266–R269): fields first, then DISABLE, then EN. -/
def Dev.dmaWriteReg (d : Dev) (p : Page) (a : Nat) (v : Word) : Dev :=
  let off := a % 0x1000
  if off < 0x200 ∨ 0x400 ≤ off then d.plainWrite p a v
  else
    let ch := 8 * p.n + (off - 0x200) / 0x40
    match (off - 0x200) % 0x40 with
    | 0 =>
      let m := if d.quiet p (pageBase a) off then 0x3FFF0004 else 0
      ((d.setReg a (merge (d.reg a) v m)).dmaDisableWrite ch (flag v 1)).dmaEn ch (flag v 0)
    | 0x18 => d.dmaDoorbell ch
    | 0x1C | 0x20 => (d.plainWrite p a v).dmaIrqCheck ch
    | _ => d.plainWrite p a v

/-- A write of FAB_SELF is sent to every accepted peer (R462), as a MGMT packet of its four bytes (DESIGN CHOICE, log
entry 80), and each peer is held against it (R276). -/
def Dev.selfSend (d : Dev) : Dev :=
  let l := bytesLE 4 (d.reg (aFab 0x100)).toNat
  d.fw.peers.foldl (fun d q =>
    (if (d.port q).up then d.pushOut { pkt := { type := 8, cls := 5, len := 4, data := l }, ports := [q] } else d).peerCheck q) d

/-- FAB_SELF_WRITE: refused unless the page is quiesced. -/
def Dev.selfWrite (d : Dev) (v : Word) : Dev :=
  match pageOf (aFab 0x100) with
  | none => d
  | some p =>
    if d.quiet p (aFab 0) 0x100 then
      (List.range 24).foldl (fun d q => if (d.port q).up && d.bit (aSlp q 0x108) 31 then d.calStart q else d) (d.plainWrite p (aFab 0x100) v).selfSend
    else d

/-- FAB pages (R276, R291, R296, R298, R307). -/
def Dev.fabPageWrite (d : Dev) (p : Page) (a : Nat) (v : Word) : Dev :=
  let off := a % 0x1000
  match p.kind with
  | .fabMain => if off = 0x100 then d.selfWrite v else if off = 0x140 then d.msgRelease (Machine.fld v 25 20) (Machine.fld v 19 16) (Machine.fld v 15 0) else d.plainWrite p a v
  | .fabJobs =>
    let d1 := d.plainWrite p a v
    if 0x100 ≤ off ∧ off < 0x900 ∧ off % 0x20 = 0x14 then d1.cqHead ((off - 0x100) / 0x20) (Machine.fld v 15 0)
    else if 0x100 ≤ off ∧ off < 0x900 ∧ off % 0x20 = 0x10 then d1.cqCheck ((off - 0x100) / 0x20)
    else d1
  | _ =>
    let n := (off - 0x100) / 0x20
    if off < 0x100 ∨ 0x900 ≤ off then d.plainWrite p a v
    else if off % 0x20 = 0x10 then d.ringDoorbell n
    else if off % 0x20 = 0x14 then
      let d1 := d.setReg a (merge (d.reg a) v 0x00FF0000)
      if flag v 31 then d1.ringEnable n else d1.ringDisable n
    else d.plainWrite p a v

/-- CMD main page (R386, R387, R396, R400): a base of a failed copy written again may be taken back at a resume. -/
def Dev.cmdWrite (d : Dev) (p : Page) (a : Nat) (v : Word) : Dev :=
  match a % 0x1000 with
  | 0x100 => d.cmdPause (flag v 0)
  | 0x104 =>
    if !d.cb.paused then d
    else if flag v 31 ∧ d.bit (aCmd 0x104) 31 = false then d.jrnEnable (flag v 30)
    else d.plainWrite p a v
  | 0x108 | 0x10C | 0x110 | 0x114 =>
    let i := (a % 0x1000 - 0x108) / 8
    let d1 := d.plainWrite p a v
    if d.cb.paused ∧ d.jrnOk i = false then { d1 with cb := { d1.cb with rebased := setIns d1.cb.rebased i } } else d1
  | 0x148 => d.streamReset (Machine.fld v 19 0)
  | _ => d.plainWrite p a v

/-- Calendar (R397, R400): fields but EN are written while EN is 0; EN 0→1 begins the entry's slots. -/
def Dev.calWrite (d : Dev) (p : Page) (a : Nat) (v : Word) : Dev :=
  let off := a % 0x1000
  if off < 0x200 ∨ 0xA00 ≤ off then d.plainWrite p a v
  else
    let e := (off - 0x200) / 0x20
    let on := d.bit (aCal e 0) 31
    if off % 0x20 = 0 then
      let d1 := d.setReg a (merge (d.reg a) v (if on then 0x80000000 else 0x800FFFFF))
      if flag v 31 ∧ on = false then d1.calEnable e else d1
    else if on then d else d.plainWrite p a v

/-- Job table of the command block (R395). -/
def Dev.cmdJobWrite (d : Dev) (p : Page) (a : Nat) (v : Word) : Dev :=
  let off := a % 0x1000
  if 0x200 ≤ off ∧ off < 0xE00 ∧ 8 ≤ (off - 0x200) % 0x30 ∧ (off - 0x200) % 0x30 < 0x2C ∧ off % 4 = 0 then
    d.jobCoresWrite ((off - 0x200) / 0x30) (((off - 0x200) % 0x30 - 8) / 4) v
  else d.plainWrite p a v

/-- Queue table (R369, R371): the register's fields, then EN. -/
def Dev.sqWrite (d : Dev) (p : Page) (a : Nat) (v : Word) : Dev :=
  let off := a % 0x1000
  if 0x100 ≤ off ∧ off % 16 = 8 then
    let q := 240 * p.n + (off - 0x100) / 16
    let m := if d.bit (aSq q 8) 31 then 0 else 0x3F1F0000
    (d.setReg a (stored .cmdSq off (d.reg a) v m)).sqEnWrite q (flag v 31)
  else d.plainWrite p a v

/-- CCTL page (R191, R194, R197). -/
def Dev.cctlWrite (d : Dev) (p : Page) (a : Nat) (v : Word) : Dev :=
  match a % 0x1000 with
  | 0x110 => match Machine.fld v 1 0 with
    | 1 => d.ctxSave p.n (flag v 4)
    | 2 => d.ctxRestore p.n (flag v 4)
    | _ => d
  | 0x140 => if flag v 31 ∧ d.eventBits a = 0 then [0x140, 0x144, 0x148, 0x14C].foldl (fun d o => d.setReg (aCctl p.n o) 0) d else d
  | _ => d.plainWrite p a v

/-- Column scale banks by BAR0 (R120): a write to a bank in use, or behind held writes, is held. -/
def Dev.bankWrite (d : Dev) (c i : Nat) (v : Word) : Dev :=
  let w : BankWrite := { plane := i / 256, bank := i % 256 / 64, first := i % 64, vals := [v], bad := [], due := d.cycle }
  if (d.core c).bankHeld w.plane w.bank then d.onCore c (fun k => { k with banks := k.banks ++ [w] }) else d.bankStore c w

/-- PLN page. -/
def Dev.plnWrite (d : Dev) (p : Page) (a : Nat) (v : Word) : Dev :=
  if 0x800 ≤ a % 0x1000 ∧ a % 4 = 0 then d.bankWrite p.n ((a % 0x1000 - 0x800) / 4) v else d.plainWrite p a v

/-- STRM page (R180, R189). -/
def Dev.strmWrite (d : Dev) (p : Page) (a : Nat) (v : Word) : Dev :=
  match a % 0x1000 with
  | 0x100 => d.strmStart p.n (flag v 1) (flag v 0)
  | 0x134 => d.setFlags p.n (Machine.fld v 15 0)
  | 0x138 => d.clrFlags p.n (Machine.fld v 15 0)
  | _ => d.plainWrite p a v

/-- CMEM_BW_SPLIT (R209): fields of 4 to 56 that sum to 64; any other write is ignored with SPLIT_BAD. -/
def splitOk (v : Word) : Bool :=
  let l := [Machine.fld v 5 0, Machine.fld v 13 8, Machine.fld v 21 16]
  l.all (fun n => decide (4 ≤ n) && decide (n ≤ 56)) && l.sum == 64

/-- CMEM page (R209). -/
def Dev.cmemWriteReg (d : Dev) (p : Page) (a : Nat) (v : Word) : Dev :=
  if a % 0x1000 = 0x100 ∧ splitOk v = false then d.raise (aCmem p.n 0) 3 else d.plainWrite p a v

/-- A register from offset 0x100 on. -/
def Dev.blockWrite (d : Dev) (p : Page) (a : Nat) (v : Word) : Dev :=
  let off := a % 0x1000
  match p.kind with
  | .glbStep =>
    if 0x200 ≤ off ∧ off < 0xE00 ∧ (off - 0x200) % 0x30 = 0 then (if flag v 0 then d.stepArm ((off - 0x200) / 0x30) else d)
    else d.plainWrite p a v
  | .rst => d.rstWrite p a v
  | .owlMain => d.owlWrite p a v
  | .owlJobs => if off = 0x100 then d.owlStop (Machine.fld v 13 8) (Machine.fld v 7 0) else d.plainWrite p a v
  | .sqr => d.sqrWrite p a v
  | .truMain => d.truWrite p a v
  | .fwl => d.fwlWrite p a v
  | .hmc => if off = 0x128 then (if flag v 0 then d.hmcDefer p.n else d) else d.plainWrite p a v
  | .dma => d.dmaWriteReg p a v
  | .slp => if off = 0x138 then (if flag v 0 then d.slpDefer p.n else d) else d.plainWrite p a v
  | .fabMain | .fabJobs | .fabRings => d.fabPageWrite p a v
  | .cmdMain => d.cmdWrite p a v
  | .cmdCal => d.calWrite p a v
  | .cmdJobs => d.cmdJobWrite p a v
  | .cmdSq => d.sqWrite p a v
  | .cctl => d.cctlWrite p a v
  | .pln => d.plnWrite p a v
  | .strm => d.strmWrite p a v
  | .cmem => d.cmemWriteReg p a v
  | _ => d.plainWrite p a v

/-- What a clearing of error bits clears with them: the record of the first mismatch with CHK_MM (R109), the first error
record once CE and UE are both clear (R202, R232), and the degraded line's with LINE_DEG (R233). -/
def Dev.recordsClear (d : Dev) (p : Page) (v : Word) : Dev :=
  match p.kind with
  | .pln => if flag v 0 then (d.putB (aPln p.n 0x130) 31 false).putB (aPln p.n 0x130) 22 false else d
  | .cmem => if d.fld (aCmem p.n 0x10) 1 0 = 0 then d.putB (aCmem p.n 0x118) 31 false else d
  | .hmc =>
    let d1 := if d.fld (aHmc p.n 0x10) 1 0 = 0 then d.putB (aHmc p.n 0x114) 31 false else d
    if flag v 3 then d1.putB (aHmc p.n 0x118) 31 false else d1
  | _ => d

/-- The common header. -/
def Dev.headWrite (d : Dev) (p : Page) (a : Nat) (v : Word) : Dev :=
  let d1 := d.plainWrite p a v
  if a % 0x1000 = 0x10 then d1.recordsClear p v else d1

/-- An aligned write of one register, where its page serves it; both NOC pages reach the reduction registers (R38). -/
def Dev.regPut (d : Dev) (a0 : Nat) (v : Word) : Dev :=
  let a := redAlias a0
  match pageOf a with
  | none => d
  | some p =>
    if !d.servesPage p then d
    else match p.kind with
      | .fwlData => d.windowWrite (a % 0x1000) (bytesLE 4 v.toNat)
      | .msix => d.msixWrite (a - aMsix) v
      | _ =>
        if a % 0x1000 = 8 then d.blkCtrl p (pageBase a) v
        else if a % 0x1000 = 0x24 then d.commitWrite (pageBase a) v
        else if a % 0x1000 < 0x100 then d.headWrite p a v
        else d.blockWrite p a v


/-- REG_WRITE: a write of BAR0 of some bytes (R8, R365): aligned 32-bit and 64-bit writes only, a 64-bit one to two
registers, the lower first; a poisoned write is discarded. -/
def Dev.bar0Write (d : Dev) (a n : Nat) (v : BitVec 64) (ep : Bool) : Dev :=
  if ep then d.poisonRx
  else if n = 4 ∧ a % 4 = 0 then d.regPut a (v.setWidth 32)
  else if n = 8 ∧ a % 8 = 0 then (d.regPut a (v.setWidth 32)).regPut (a + 4) ((v >>> 32).setWidth 32)
  else d

/-- OWL_LOG_RESTART: a write of OWL_LOG_LO, OWL_LOG_HI or OWL_LOG_CFG (R349). -/
def Dev.logWrite (d : Dev) (i : Nat) (v : Word) : Dev := d.regPut (aOwl (0x118 + 4 * i)) v

end Sys2Proof.Machine
end

