-- ==== Sys2Proof/Machine/Host.lean ====
section
/-! DEFINITION. What the host does through BAR2 (13 R361, R363–R365), and host reads by the device that fail (R366). -/

namespace Sys2Proof.Machine

/-- Base of the BAR2 window: bits of HIF_BAR2_OFFSET below the BAR2 size are ignored (R364). -/
def Dev.bar2Base (d : Dev) : Nat := (d.fld (aHif 0x108) 8 0 * 2 ^ 32 + d.fld (aHif 0x104) 31 30 * 2 ^ 30) / 2 ^ d.cb.bar2 * 2 ^ d.cb.bar2

/-- Does a TLP lie in BAR2, and may it be served or refused now (R363)? -/
def Dev.bar2Hit (d : Dev) (off n : Nat) : Bool := !d.pw.railHold && decide (off + n ≤ 2 ^ d.cb.bar2)

/-- Is BAR2 open: the parts it needs awake and not being reset (R408, R421)? -/
def Dev.bar2Open (d : Dev) : Bool := d.clockOn && !d.bit (aRst 0x10C) 0

/-- A completion of status UR; AER's bit 20 (R361). -/
def Dev.answerUr (d : Dev) : Dev := { d.aerError 20 with rdata := [], rpoison := false, rur := true, rref := false }

/-- A completion with data: EP is counted (R365). -/
def Dev.bar2Answer (d : Dev) (data : List Byte) (p : Bool) : Dev :=
  let d1 := d.respond data p
  if p then (d1.inc (aHif 0x10C)).raise (aHif 0) 0 else d1

/-- Does a block of a range wait for its page's copy or its stack's window (R245, R353)? -/
def Dev.rangeWaits (d : Dev) (pa n : Nat) : Bool :=
  (List.range (blocksIn pa n)).any (fun i => decide (pa / 64 * 64 + 64 * i < hbmEnd) && d.hbmWaits (pa / 64 * 64 + 64 * i) true)

/-- BAR2_READ of n bytes (R364, R365, R436). -/
def Dev.bar2Read (d : Dev) (off n : Nat) : Dev :=
  if !d.bar2Hit off n then d
  else if !d.ready then d.answerUr
  else if !d.bar2Open || d.rangeWaits (d.bar2Base + off) n then d
  else
    let (d1, g) := d.devReadN 0 none (d.bar2Base + off) n
    d1.bar2Answer g.data g.poison

/-- Must a piece of a write wait? One held by a first-touch copy is taken and held there. -/
def Dev.pieceWaits (d : Dev) (q : Nat × List Byte) : Bool :=
  decide (q.1 < hbmEnd) && d.hbmWaits q.1 (decide (q.2.length < 64)) && !d.sqrCopy.contains (q.1 / 0x10000)

/-- BAR2_WRITE (R364, R365, R436): a poisoned TLP is performed, and poisons the blocks it touches. -/
def Dev.bar2Write (d : Dev) (off : Nat) (data : List Byte) (ep : Bool) : Dev :=
  let pa := d.bar2Base + off
  if !d.bar2Hit off data.length then d
  else if !d.ready then (if ep then d.poisonRx else d)
  else if !d.bar2Open || (cutBlocks pa data).any d.pieceWaits then d
  else (if ep then d.poisonRx else d).devWriteN 0 none pa data ep

/-- AtomicOps of BAR2 (R361). -/
inductive AtomicOp where
  | fetchAdd | swap | cas
  deriving DecidableEq, Repr

/-- Their operand sizes. -/
inductive AtomicSize where
  | w32 | w64 | w128
  deriving DecidableEq, Repr

/-- Bytes of an operand. -/
def AtomicSize.bytes : AtomicSize → Nat
  | .w32 => 4
  | .w64 => 8
  | .w128 => 16

/-- The atomic of R241 that performs an AtomicOp; `none`: answered UR. A 128-bit FetchAdd or Swap is no PCIe request. -/
def atomicCode : AtomicOp → AtomicSize → Option Nat
  | .fetchAdd, .w32 => some 0x01
  | .fetchAdd, .w64 => some 0x02
  | .swap, .w32 => some 0x11
  | .swap, .w64 => some 0x12
  | .cas, .w32 => some 0x13
  | .cas, .w64 => some 0x14
  | _, .w128 => none

/-- BAR2_ATOMIC (R361, R241). -/
def Dev.bar2Atomic (d : Dev) (off : Nat) (op : AtomicOp) (sz : AtomicSize) (a cmp : Nat) : Dev :=
  if !d.bar2Hit off sz.bytes then d
  else if !d.ready then d.answerUr
  else if !d.bar2Open then d
  else match atomicCode op sz with
    | none => d.answerUr
    | some code =>
      let (d1, r) := d.atomic 0 code (d.bar2Base + off) a cmp
      match r with
      | some (old, p) => d1.bar2Answer (bytesLE ((atomicWidth code).getD 8) old) p
      | none => d1

/-! ## Failed host reads (R366) -/

/-- A read of host memory that the device has outstanding: a piece of descriptor j of a DMA channel, a channel's ring, a
submission queue's ring. -/
inductive HostReader where
  | dmaMove (ch : Fin 64) (j : Fin 4)
  | dmaRing (ch : Fin 64)
  | sq (q : Fin 4096)
  deriving DecidableEq, Repr

/-- Does the channel's next ring read go to host memory? -/
def Dev.ringOut (d : Dev) (ch : Nat) : Bool := d.dmaMayFetch ch && d.dmaRingHost ch

/-- Does descriptor j's next piece read host memory? -/
def Dev.moveOut (d : Dev) (ch j : Nat) : Bool :=
  match (d.chan ch).mayMove j with
  | none => false
  | some e => dmaSrcHost e.w

/-- DMA_DESC_FETCH whose host read fails with status UR or CA is counted. -/
def Dev.dmaFetchEnd (d : Dev) (ch : Nat) (fail : Bool) : Dev :=
  (if fail && d.ringOut ch then d.hostEnd .urCa else d).dmaFetch ch fail

/-- DMA_XFER_FAIL: a read answered UR or CA is counted; a write is refused by the host interface. -/
def Dev.dmaFailEnd (d : Dev) (ch j : Nat) (write : Bool) : Dev :=
  (if !write && d.moveOut ch j then d.hostEnd .urCa else d).dmaXferFail ch j write

/-- PCIE_CPL_TIMEOUT. -/
def Dev.cplTimeout (d : Dev) (r : HostReader) : Dev :=
  match r with
  | .dmaMove ch j => if d.moveOut ch j then (d.hostEnd .timeout).dmaXferFail ch j false else d
  | .dmaRing ch => if d.ringOut ch then (d.hostEnd .timeout).dmaFetch ch true else d
  | .sq q => if d.sqHost q then d.cmdFetch q .timeout else d

end Sys2Proof.Machine
end

