-- ==== Sys2Proof/Machine/View.lean ====
section
/-! DEFINITION. What a read of BAR0 returns (00 R8, R9, R12; 15 R436; the register tables of every chapter): registers that
show live state are computed from it. -/

namespace Sys2Proof.Machine

/-- STATE of a DMA channel (R270). -/
def ChanState.code : ChanState → Nat
  | .idle => 0 | .active => 1 | .wait => 2 | .error => 3 | .disabled => 4

/-- STATE of a job's snapshots (R360). -/
def SnapState.code : SnapState → Nat
  | .idle => 0 | .running => 1 | .committed => 2 | .merging => 3


/-- STATE of a slot (R87): 0 EMPTY, 1 BUSY, 2 PAUSED, 3 HELD, 4 DRAINING. -/
def Core.slotState (k : Core) (key : Nat) : Nat :=
  let s := k.slot key
  if s.draining then 4
  else if k.busy key then (if k.flight.any (fun o => o.keys.contains key && o.t0.isSome && (k.edge (mPlane o.w)).paused) then 2 else 1)
  else if s.full then 3 else 0

/-- PLN_SLOT_F_n and PLN_SLOT_B_n (R86, R102, R113, R115). -/
def Core.slotView (k : Core) (key : Nat) : Nat :=
  let s := k.slot key
  let f (i : Nat) : Bool := s.uf.any (fun p => bitN p.2 i)
  s.cnt % 2 ^ 20 + b2n (f 3) * 2 ^ 20 + b2n (f 2) * 2 ^ 21 + b2n (f 1) * 2 ^ 22 + b2n (f 0) * 2 ^ 23 + b2n s.stale * 2 ^ 25
    + b2n s.shift * 2 ^ 26 + b2n (k.busy key) * 2 ^ 27 + k.slotState key * 2 ^ 28

/-- Registers of a core's STRM page that show its streams (R198). -/
def Core.strmView (k : Core) (cyc off : Nat) : Option Nat :=
  match off with
  | 0x104 => some (k.x.st.code * 256 + k.a.st.code)
  | 0x108 => some (k.x.pc % 2 ^ 20)
  | 0x10C => some (k.a.pc % 2 ^ 20)
  | 0x130 => some ((k.flagSync cyc).flags % 65536)
  | 0x140 => some (k.fill2 cyc 0)
  | 0x144 => some (k.fill2 cyc 2)
  | 0x148 => some (k.fill2 cyc 4)
  | _ => none

/-- Has an edge of a core an operation, and do the buffer or the chain (BLK_STAT of PLN, R116)? DESIGN CHOICE (log entry 126):
a plane or the buffer is active while an operation of it has entered its edge and not retired, the chain while its input
holds data. -/
def Core.plnStat (k : Core) : Nat :=
  let on (p : Nat) : Bool := k.flight.any (fun o => o.t0.isSome && o.keys.any (fun x => x / 8 == p))
  b2n (on 0) + 2 * b2n (on 1) + 4 * b2n (k.flight.any (fun o => o.t0.isSome && mTbuf o.w)) + 8 * b2n (!k.chainIn.isEmpty)

/-- Log entries in use per engine (CMEM_LOG_STAT). -/
def Core.logView (k : Core) : Nat := (List.range 4).foldl (fun n q => n + (k.logsOf q).length * 256 ^ q) 0

/-- BLK_STAT of a page (R116, R197, R223, R270, R306, R400, R433). -/
def Dev.blkStat (d : Dev) (p : Page) : Nat :=
  match p.kind with
  | .cctl => b2n (d.core p.n).ctx.isSome
  | .pln => (d.core p.n).plnStat
  | .cmem => b2n (d.bit (aCmem p.n 0x108) 31) + 2 * b2n (!(d.core p.n).logs.isEmpty) + 4 * b2n (d.core p.n).clearing.isSome
  | .dma => (List.range 8).foldl (fun n i => n + b2n ((d.chan (8 * p.n + i)).st == .active) * 2 ^ i) 0
  | .slp => b2n (d.port p.n).up + 2 * b2n (d.port p.n).window + 4 * b2n (d.port p.n).training
  | .cmdMain => b2n d.cb.scanning + 2 * b2n d.cb.paused
  | .rst => d.fld (aRst 0x10C) 2 0
  | _ => 0

/-- SQR page (R360). -/
def Dev.sqrView (d : Dev) (off : Nat) : Option Nat :=
  if off = 0x128 then some d.sqrStage.length
  else if 0x200 ≤ off ∧ off < 0x600 then
    let n := (off - 0x200) / 16
    let j := d.sqrJob n
    let on : Bool := j.st == .running
    match (off - 0x200) % 16 with
    | 0 => some (65536 * (if on then j.gen % 65536 else 0) + j.com % 65536)
    | 4 => some (b2n j.lost * 2 ^ 31 + b2n j.done * 2 ^ 30 + b2n (on && j.base) * 2 ^ 29 + b2n j.startPend * 2 ^ 28 + 2 ^ 24 * j.st.code
        + (if on then (d.sendLeft n + j.unacked) % 2 ^ 24 else 0))
    | _ => none
  else none

/-- DMA channel registers (R264, R270). -/
def Dev.dmaView (d : Dev) (b off : Nat) : Option Nat :=
  if off < 0x200 ∨ 0x400 ≤ off then none
  else
    let k := d.chan (8 * b + (off - 0x200) / 0x40)
    match (off - 0x200) % 0x40 with
    | 4 => some (k.errIdx % 65536 * 65536 + k.errCode % 256 * 256 + b2n k.dbPend * 8 + k.st.code)
    | 0x2C => some (k.pend % 2 ^ 17)
    | _ => none

/-- Does a register's shadow hold a change that has not taken effect (R425)? -/
def Dev.shadowed (d : Dev) (a : Nat) : Bool := d.shad a != d.reg a

/-- The register of a page as live state shows it; `none`: it is a stored register. -/
def Dev.liveView (d : Dev) (p : Page) (off : Nat) : Option Nat :=
  if off = 0xC then some (d.blkStat p)
  else match p.kind with
    | .glbHdr => if off = 0x28 then some 0 else none
    | .cctl => if off = 8 ∧ d.fenced p.n then some ((d.reg (aCctl p.n 8)).toNat ||| 4) else none
    | .strm => (d.core p.n).strmView d.cycle off
    | .pln => if 0x180 ≤ off ∧ off < 0x1C0 then some ((d.core p.n).slotView ((off - 0x180) / 4)) else none
    | .cmem =>
      if off = 0x134 then some (d.core p.n).logView
      else if off = 0x28 then some ((d.reg (aCmem p.n 0x28)).toNat + b2n (d.shadowed (aCmem p.n 0x100)) + 2 * b2n (d.shadowed (aCmem p.n 0x104)))
      else none
    | .noc => if off = 0x104 then some ((List.range 16).foldl (fun n i => n + b2n (d.redBusy i) * 2 ^ i) 0) else none
    | .owlMain =>
      if off = 0x108 then some (d.owl.peak % 256 * 256 + d.owlScore % 256)
      else if off = 0x10C then some (b2n d.owl.spare * 2 + b2n (decide (d.fld (aOwl 0x104) 7 0 ≤ d.owlScore)))
      else if off = 0x114 then some (match d.fences.filter (fun f => !f.due) with
        | [] => 0
        | f :: _ => 0x80000000 + f.phys) else none
    | .sqr => d.sqrView off
    | .dma => d.dmaView p.n off
    | .fabMain => if off = 0x118 then some d.fab.tags.length else none
    | .hif => if off = 0x104 ∨ off = 0x108 then some (let b := d.bar2Base; if off = 0x104 then b % 2 ^ 32 else b / 2 ^ 32) else none
    | .pwr => if off = 0x10C then some (d.holdBy * 256 + d.pw.cur) else if off = 0x120 then some d.granted else none
    | .aon => if off = 0x100 then some (d.tick % 2 ^ 32) else if off = 0x104 then some d.pw.tickHi else none
    | .truMain => if off = 0x124 then some (if d.tru.scope = 0 then 0 else d.tru.left) else none
    | _ => none

/-- MSI-X table and PBA (R368). -/
def Dev.msixView (d : Dev) (off : Nat) : Word :=
  if off < 0x8000 then d.msix.getD (off / 4) (if off / 4 % 4 = 3 then 1 else 0)
  else if off < 0x8100 then BitVec.ofNat 32 ((List.range 32).foldl (fun n i => n + b2n (d.pba.contains ((off - 0x8000) * 8 + i)) * 2 ^ i) 0)
  else 0

/-- An aligned read of one register where its page serves it: write-only fields, reserved bits and offsets read as zero,
shadowed fields from the shadow (R9, R12). -/
def Dev.regView (d : Dev) (p : Page) (a : Nat) : Word :=
  match p.kind with
  | .fwlData => 0
  | .msix => d.msixView (a - aMsix)
  | _ => match d.liveView p (a % 0x1000) with
    | some n => BitVec.ofNat 32 n
    | none => match rowOf p (a % 0x1000) with
      | none => 0
      | some r => (if r.rws = 0 then d.reg a else d.shad a) &&& ~~~ BitVec.ofNat 32 r.wo

/-- A read of one register of BAR0: before READY the other pages answer all ones (R436); `none`: the read waits for its
part (R408, R421). -/
def Dev.regGet (d : Dev) (a0 : Nat) : Option Word :=
  let a := redAlias a0
  match pageOf a with
  | none => some (if d.ready then 0 else 0xFFFFFFFF)
  | some p =>
    if !p.kind.early && !d.ready then some 0xFFFFFFFF
    else if d.servesPage p then some (d.regView p a)
    else none

/-- What a read of n bytes of BAR0 returns (R8): an aligned 64-bit read two consecutive registers, the lower first; a read of
any other size or alignment all ones. -/
def Dev.bar0Read (d : Dev) (a n : Nat) : Option (BitVec 64) :=
  if n = 4 ∧ a % 4 = 0 then (d.regGet a).map (fun w => w.setWidth 64)
  else if n = 8 ∧ a % 8 = 0 then
    match d.regGet a, d.regGet (a + 4) with
    | some l, some h => some (h ++ l)
    | _, _ => none
  else some 0xFFFFFFFF

end Sys2Proof.Machine
end

