-- ==== Sys2Proof/Machine/Words.lean ====
section
/-! DEFINITION. A stream word as a command names it: one slot's own bits, below its opcode, and the word's other slots
(R144–R146, R163, R167, R169). -/

namespace Sys2Proof.Machine

/-- Physical core ID (R4), Sloer port, job, DMA channel, HBM stack, plane (0 F, 1 B, 2 J), F or B, register page, command
stream, submission queue. -/
abbrev CoreNo := Fin 312
abbrev PortNo := Fin 24
abbrev JobNo := Fin 64
abbrev ChanNo := Fin 64
abbrev StackNo := Fin 16
abbrev PlaneNo := Fin 3
abbrev SubPlane := Fin 2
abbrev PageNo := Fin 16384
abbrev StreamNo := Fin 1048576
abbrev QueueNo := Fin 4096
/-- Physical address: 48 bits (R227). -/
abbrev PhysAddr := BitVec 48

/-- Address of a page in BAR0. -/
def pageAddr (p : PageNo) : Nat := 0x1000 * p.val

/-- The other slots of an execute word beside its matrix slot (R145). -/
structure MRest where
  v : BitVec 64
  s : BitVec 40
  y : BitVec 24
  deriving DecidableEq, Repr

/-- The other slots of an execute word beside its vector slot. -/
structure VRest where
  m : BitVec 128
  s : BitVec 40
  y : BitVec 24
  deriving DecidableEq, Repr

/-- The other slots of a word beside its scalar slot: of an execute word or of an access word. -/
inductive SRest where
  | x (m : BitVec 128) (v : BitVec 64) (y : BitVec 24)
  | a (l t : BitVec 64) (y : BitVec 24)
  deriving DecidableEq, Repr

/-- The other slots of a word beside its sync slot. -/
inductive YRest where
  | x (m : BitVec 128) (v : BitVec 64) (s : BitVec 40)
  | a (l t : BitVec 64) (s : BitVec 40)
  deriving DecidableEq, Repr

/-- The other slots of an access word beside one of its memory slots: the other memory slot, scalar, sync. -/
structure LRest where
  o : BitVec 64
  s : BitVec 40
  y : BitVec 24
  deriving DecidableEq, Repr

/-- An execute word whose matrix slot has opcode op in bits 127–124 (R146). -/
def MRest.word (w : MRest) (op : BitVec 4) (m : BitVec 124) : XWord := ⟨(op ++ m).toNat, w.v.toNat, w.s.toNat, w.y.toNat⟩

/-- An execute word whose vector slot has opcode op in bits 63–58 (R156). -/
def VRest.word (w : VRest) (op : BitVec 6) (v : BitVec 58) : XWord := ⟨w.m.toNat, (op ++ v).toNat, w.s.toNat, w.y.toNat⟩

/-- An access word whose load slot has opcode op in bits 63–60 (R169). -/
def LRest.loadWord (w : LRest) (op : BitVec 4) (l : BitVec 60) : AWord := ⟨(op ++ l).toNat, w.o.toNat, w.s.toNat, w.y.toNat⟩

/-- An access word whose store slot has opcode op in bits 63–60. -/
def LRest.storeWord (w : LRest) (op : BitVec 4) (t : BitVec 60) : AWord := ⟨w.o.toNat, (op ++ t).toNat, w.s.toNat, w.y.toNat⟩

/-- Issue of a word whose scalar slot has opcode op in bits 39–36 (R163). -/
def SRest.issue (w : SRest) (op : BitVec 4) (s : BitVec 36) (c : Nat) (d : Dev) : Dev :=
  match w with
  | .x m v y => d.issueX c ⟨m.toNat, v.toNat, (op ++ s).toNat, y.toNat⟩
  | .a l t y => d.issueA c ⟨l.toNat, t.toNat, (op ++ s).toNat, y.toNat⟩

/-- Issue of a word whose sync slot has opcode op in bits 23–20 (R167). -/
def YRest.issue (w : YRest) (op : BitVec 4) (y : BitVec 20) (c : Nat) (d : Dev) : Dev :=
  match w with
  | .x m v s => d.issueX c ⟨m.toNat, v.toNat, s.toNat, (op ++ y).toNat⟩
  | .a l t s => d.issueA c ⟨l.toNat, t.toNat, s.toNat, (op ++ y).toNat⟩

end Sys2Proof.Machine
end

