-- ==== Sys2Proof/Machine/Serve.lean ====
section
/-! DEFINITION. When a command acts: the parts it needs powered, clocked, past the boot, or its register page serving
accesses (R407, R408, R421, R436, R477). A command that cannot act leaves the state as it is, and its sender sends it
again (log entry 8). -/

namespace Sys2Proof.Machine

/-- A command of a part that needs power only. -/
def Dev.powered (d : Dev) (f : Dev → Dev) : Dev := if d.pw.railHold then d else f d

/-- A command of a part that runs on a fast clock. -/
def Dev.clocked (d : Dev) (f : Dev → Dev) : Dev := if d.clockOn then f d else d

/-- A command of a part that runs on a fast clock and works from READY on. -/
def Dev.running (d : Dev) (f : Dev → Dev) : Dev := if d.clockOn && d.ready then f d else d

/-- A write of the register at an address of BAR0. -/
def Dev.atReg (d : Dev) (a : Nat) (f : Dev → Dev) : Dev := if d.serves a then f d else d

/-- Has a page the block header of R424? -/
def PageKind.hasHeader : PageKind → Bool
  | .fwlData | .msix => false
  | _ => true

/-- A write of the header of the page at a base. -/
def Dev.atPage (d : Dev) (base : Nat) (f : Dev → Dev) : Dev :=
  match pageOf base with
  | none => d
  | some p => if p.kind.hasHeader && d.servesPage p then f d else d

/-- CFG_COMMIT with an epoch (R425). -/
def Dev.commitAt (base e : Nat) (d : Dev) : Dev := d.commitWrite base (BitVec.ofNat 32 e)

/-- A posted reduction at its home slice: one that needs a stack in its window waits (R242, R245). -/
def Dev.reduction (d : Dev) (die op pa : Nat) (data : List Byte) (p : Bool) : Dev :=
  if pa % redWidth op = 0 ∧ data.length % redWidth op = 0 ∧ d.redWaits pa then d.sliceHeld pa else d.postRed die op pa data p

end Sys2Proof.Machine
end

