-- ==== Sys2Proof/Syntax.lean ====
section
/-! DEFINITION. The commands: one constructor per row of spec/opcode_table.json. Operands are what the row names: a part, a
register value, bytes, and what the surroundings bring about in it (an error in a wire, a measurement, an answer). -/

namespace Sys2Proof

open Sys2Proof.Machine

/-- A command of the LT1. -/
inductive Instr where
  /-- REG_WRITE (R490). -/
  | regWrite (a : BitVec 26) (n : Fin 9) (v : BitVec 64) (ep : Bool)
  /-- CFG_COMMIT (R425). -/
  | cfgCommit (page : PageNo) (e : BitVec 16)
  /-- CFG_COMMIT_DISARM (R426). -/
  | cfgCommitDisarm (page : PageNo)
  /-- CORE_EPOCH_APPLY (R427). -/
  | coreEpochApply (c : CoreNo) (e : BitVec 16)
  /-- RST_EPOCH_REQ (R428). -/
  | rstEpochReq (all : Bool) (job : JobNo) (e : BitVec 16)
  /-- DEVICE_EPOCH_APPLY (R428). -/
  | deviceEpochApply
  /-- CORE_FENCE_APPLY (R24). -/
  | coreFenceApply
  /-- CORE_FENCE_REQUEST (R343). -/
  | coreFenceRequest (c : CoreNo)
  /-- MESH_PACKET_DELIVER (R29). -/
  | meshPacketDeliver (c : CoreNo) (job : Option JobNo) (op : MeshOp) (e : MeshErr)
  /-- REDUCE_PACKET_ARRIVE (R42). -/
  | reducePacketArrive (c : CoreNo) (i : Fin 16) (port : Fin 5) (src : CoreNo) (p : RedIn)
  /-- REDUCE_CHUNK_COMBINE (R39). -/
  | reduceChunkCombine (c : CoreNo) (i : Fin 16)
  /-- MRUN (R147). -/
  | mrun (c : CoreNo) (m : BitVec 124) (w : MRest)
  /-- OP_EDGE_ENTER (R83). -/
  | opEdgeEnter (c : CoreNo) (p : PlaneNo)
  /-- SCALE_BLOCK_TAKE (R126). -/
  | scaleBlockTake (c : CoreNo) (p : PlaneNo)
  /-- GROUP_INJECT (R78). -/
  | groupInject (c : CoreNo) (p : PlaneNo)
  /-- GROUP_BOUNDARY (R62). -/
  | groupBoundary (c : CoreNo) (p : PlaneNo) (cells : List HwErr) (lane : List HwErr)
  /-- DECISION_OPEN (R340). -/
  | decisionOpen (c : CoreNo) (p : PlaneNo)
  /-- SLOT_PARITY_ERROR (R85). -/
  | slotParityError (c : CoreNo) (p : SubPlane) (slot : Fin 8) (copy : Bool) (r : Fin 96) (j : Fin 64)
  /-- OP_RETIRE (R83). -/
  | opRetire (c : CoreNo) (p : PlaneNo)
  /-- PLANE_PAUSE (R88). -/
  | planePause (c : CoreNo) (p : PlaneNo)
  /-- PU_FENCE_APPLY (R114). -/
  | puFenceApply (c : CoreNo) (p : SubPlane)
  /-- DRAIN (R153). -/
  | drain (c : CoreNo) (m : BitVec 124) (w : MRest)
  /-- DRAIN_START (R155). -/
  | drainStart (c : CoreNo)
  /-- DRAIN_ROW (R141). -/
  | drainRow (c : CoreNo)
  /-- TLOAD (R134). -/
  | tload (c : CoreNo) (l : BitVec 60) (w : LRest)
  /-- TABLE_LOAD_DONE (R134). -/
  | tableLoadDone (c : CoreNo)
  /-- CSLD (R169). -/
  | csld (c : CoreNo) (l : BitVec 60) (w : LRest)
  /-- BANK_WRITE_APPLY (R120). -/
  | bankWriteApply (c : CoreNo) (plane : Fin 2) (bank : Fin 4)
  /-- AGSET (R169). -/
  | agset (c : CoreNo) (inStore : Bool) (x : BitVec 60) (w : LRest)
  /-- LDQ (R169). -/
  | ldq (c : CoreNo) (l : BitVec 60) (w : LRest)
  /-- STQ (R169). -/
  | stq (c : CoreNo) (t : BitVec 60) (w : LRest)
  /-- LOAD_ENTRY_PUSH (R214). -/
  | loadEntryPush (c : CoreNo) (q : Fin 4)
  /-- STORE_BLOCK_WRITE (R175). -/
  | storeBlockWrite (c : CoreNo) (sq : Fin 2)
  /-- STORE_WRITE_TIMEOUT (R171). -/
  | storeWriteTimeout (c : CoreNo)
  /-- MNOP (R146). -/
  | mnop (c : CoreNo) (m : BitVec 124) (w : MRest)
  /-- VNOP (R157). -/
  | vnop (c : CoreNo) (v : BitVec 58) (w : VRest)
  /-- VADD (R157). -/
  | vadd (c : CoreNo) (v : BitVec 58) (w : VRest)
  /-- VSUB (R157). -/
  | vsub (c : CoreNo) (v : BitVec 58) (w : VRest)
  /-- VMUL (R157). -/
  | vmul (c : CoreNo) (v : BitVec 58) (w : VRest)
  /-- VFMA (R157). -/
  | vfma (c : CoreNo) (v : BitVec 58) (w : VRest)
  /-- VMIN (R157). -/
  | vmin (c : CoreNo) (v : BitVec 58) (w : VRest)
  /-- VMAX (R157). -/
  | vmax (c : CoreNo) (v : BitVec 58) (w : VRest)
  /-- VABS (R157). -/
  | vabs (c : CoreNo) (v : BitVec 58) (w : VRest)
  /-- VNEG (R157). -/
  | vneg (c : CoreNo) (v : BitVec 58) (w : VRest)
  /-- VDIV (R157). -/
  | vdiv (c : CoreNo) (v : BitVec 58) (w : VRest)
  /-- VSQRT (R157). -/
  | vsqrt (c : CoreNo) (v : BitVec 58) (w : VRest)
  /-- VRSQ (R157). -/
  | vrsq (c : CoreNo) (v : BitVec 58) (w : VRest)
  /-- VCMP (R157). -/
  | vcmp (c : CoreNo) (v : BitVec 58) (w : VRest)
  /-- VSEL (R157). -/
  | vsel (c : CoreNo) (v : BitVec 58) (w : VRest)
  /-- VAND (R157). -/
  | vand (c : CoreNo) (v : BitVec 58) (w : VRest)
  /-- VOR (R157). -/
  | vor (c : CoreNo) (v : BitVec 58) (w : VRest)
  /-- VXOR (R157). -/
  | vxor (c : CoreNo) (v : BitVec 58) (w : VRest)
  /-- VPOPC (R157). -/
  | vpopc (c : CoreNo) (v : BitVec 58) (w : VRest)
  /-- VCVT (R158). -/
  | vcvt (c : CoreNo) (v : BitVec 58) (w : VRest)
  /-- VRED (R159). -/
  | vred (c : CoreNo) (v : BitVec 58) (w : VRest)
  /-- VMOVI (R157). -/
  | vmovi (c : CoreNo) (v : BitVec 58) (w : VRest)
  /-- VMOV (R157). -/
  | vmov (c : CoreNo) (v : BitVec 58) (w : VRest)
  /-- VLDQ (R162). -/
  | vldq (c : CoreNo) (v : BitVec 58) (w : VRest)
  /-- VSTQ (R162). -/
  | vstq (c : CoreNo) (v : BitVec 58) (w : VRest)
  /-- VRDS (R162). -/
  | vrds (c : CoreNo) (v : BitVec 58) (w : VRest)
  /-- VREG_WRITEBACK (R160). -/
  | vregWriteback (c : CoreNo)
  /-- CNOP (R164). -/
  | cnop (c : CoreNo) (x : BitVec 36) (w : SRest)
  /-- CSET (R164). -/
  | cset (c : CoreNo) (x : BitVec 36) (w : SRest)
  /-- CADD (R164). -/
  | cadd (c : CoreNo) (x : BitVec 36) (w : SRest)
  /-- KCMP (R164). -/
  | kcmp (c : CoreNo) (x : BitVec 36) (w : SRest)
  /-- KCMPC (R164). -/
  | kcmpc (c : CoreNo) (x : BitVec 36) (w : SRest)
  /-- BRK (R165). -/
  | brk (c : CoreNo) (x : BitVec 36) (w : SRest)
  /-- JMP (R165). -/
  | jmp (c : CoreNo) (x : BitVec 36) (w : SRest)
  /-- LOOP (R165). -/
  | loop (c : CoreNo) (x : BitVec 36) (w : SRest)
  /-- HALT (R166). -/
  | halt (c : CoreNo) (x : BitVec 36) (w : SRest)
  /-- STREAM_HALTED (R166). -/
  | streamHalted (c : CoreNo) (exec : Bool)
  /-- YNOP (R167). -/
  | ynop (c : CoreNo) (y : BitVec 20) (w : YRest)
  /-- SETF (R167). -/
  | setf (c : CoreNo) (y : BitVec 20) (w : YRest)
  /-- WAITF (R182). -/
  | waitf (c : CoreNo) (y : BitVec 20) (w : YRest)
  /-- EPOCH (R427). -/
  | epoch (c : CoreNo) (y : BitVec 20) (w : YRest)
  /-- LNOP (R144). -/
  | lnop (c : CoreNo) (l : BitVec 60) (w : LRest)
  /-- SNOP (R144). -/
  | snop (c : CoreNo) (t : BitVec 60) (w : LRest)
  /-- STRM_FLAG_SET (R180). -/
  | strmFlagSet (c : CoreNo) (m : BitVec 16)
  /-- STRM_FLAG_CLR (R180). -/
  | strmFlagClr (c : CoreNo) (m : BitVec 16)
  /-- STRM_START (R189). -/
  | strmStart (c : CoreNo) (x : Bool) (a : Bool)
  /-- BADGER_REPORT (R188). -/
  | badgerReport (c : CoreNo)
  /-- CTX_SAVE (R191). -/
  | ctxSave (c : CoreNo) (cmem : Bool)
  /-- CTX_SAVE_DONE (R193). -/
  | ctxSaveDone (c : CoreNo)
  /-- CTX_RESTORE (R194). -/
  | ctxRestore (c : CoreNo) (cmem : Bool)
  /-- CTX_RESTORE_DONE (R195). -/
  | ctxRestoreDone (c : CoreNo)
  /-- CMEM_SCRUB_STEP (R205). -/
  | cmemScrubStep (c : CoreNo)
  /-- CMEM_CLEAR_DONE (R206). -/
  | cmemClearDone (c : CoreNo)
  /-- CMEM_QUANTUM (R208). -/
  | cmemQuantum (c : CoreNo)
  /-- SLICE_ACCESS (R236). -/
  | sliceAccess (die : Fin 2) (op : SliceOp) (ce : Fin 17) (ue : Bool)
  /-- ATOMIC (R241). -/
  | atomic (die : Fin 2) (code : BitVec 5) (pa : PhysAddr) (a : BitVec 64) (cmp : BitVec 64)
  /-- POSTED_REDUCTION (R242). -/
  | postedReduction (die : Fin 2) (op : Fin 8) (pa : BitVec 41) (data : List Byte) (poison : Bool)
  /-- HBM_SCRUB_STEP (R234). -/
  | hbmScrubStep (i : StackNo)
  /-- HMC_CAL_WINDOW (R245). -/
  | hmcCalWindow (i : StackNo) (pass : Bool) (temp : BitVec 8) (odecc : BitVec 32)
  /-- HMC_CAL_WINDOW_END (R245). -/
  | hmcCalWindowEnd (i : StackNo)
  /-- HMC_CAL_DEFER (R246). -/
  | hmcCalDefer (i : StackNo)
  /-- DMA_CH_DOORBELL (R252). -/
  | dmaChDoorbell (ch : ChanNo)
  /-- DMA_POLL_EXPIRE (R252). -/
  | dmaPollExpire (ch : ChanNo)
  /-- DMA_DESC_FETCH (R252). -/
  | dmaDescFetch (ch : ChanNo) (fail : Bool)
  /-- DMA_DATA_MOVE (R256). -/
  | dmaDataMove (ch : ChanNo) (j : Fin 4)
  /-- DMA_XFER_FAIL (R260). -/
  | dmaXferFail (ch : ChanNo) (j : Fin 4) (write : Bool)
  /-- DMA_WRITE_TIMEOUT (R260). -/
  | dmaWriteTimeout (ch : ChanNo) (j : Fin 4)
  /-- DMA_WRITEBACK (R258). -/
  | dmaWriteback (ch : ChanNo)
  /-- DMA_COAL_TIMEOUT (R265). -/
  | dmaCoalTimeout (ch : ChanNo)
  /-- DMA_CH_EN (R266). -/
  | dmaChEn (ch : ChanNo) (en : Bool)
  /-- DMA_CH_DISABLE (R267). -/
  | dmaChDisable (ch : ChanNo) (dis : Bool)
  /-- PUT_RECEIVE (R295). -/
  | putReceive (p : PortNo) (h : BitVec 256) (data : List Byte) (e : FecErrs)
  /-- GET_RECEIVE (R282). -/
  | getReceive (p : PortNo) (h : BitVec 256) (e : FecErrs)
  /-- GET_RSP_RECEIVE (R288). -/
  | getRspReceive (p : PortNo) (h : BitVec 256) (data : List Byte) (e : FecErrs)
  /-- AMO_RECEIVE (R282). -/
  | amoReceive (p : PortNo) (h : BitVec 256) (data : List Byte) (e : FecErrs)
  /-- AMO_RSP_RECEIVE (R288). -/
  | amoRspReceive (p : PortNo) (h : BitVec 256) (data : List Byte) (e : FecErrs)
  /-- ACK_RECEIVE (R287). -/
  | ackReceive (p : PortNo) (h : BitVec 256) (e : FecErrs)
  /-- FWD_PACKET (R279). -/
  | fwdPacket (p : PortNo) (h : BitVec 256) (data : List Byte) (mesh : Bool) (e : FecErrs)
  /-- COL_UP_RECEIVE (R300). -/
  | colUpReceive (p : PortNo) (h : BitVec 256) (data : List Byte) (e : FecErrs)
  /-- COL_CHUNK_COMBINE (R300). -/
  | colChunkCombine (id : BitVec 8) (off : BitVec 32)
  /-- COL_DN_RECEIVE (R300). -/
  | colDnReceive (p : PortNo) (h : BitVec 256) (data : List Byte) (e : FecErrs)
  /-- MGMT_RECEIVE (R290). -/
  | mgmtReceive (p : PortNo) (h : BitVec 256) (data : List Byte) (self : Option Word) (e : FecErrs)
  /-- LINK_CREDIT_SEND (R285). -/
  | linkCreditSend (p : PortNo)
  /-- CAL_NEXT_RECEIVE (R302). -/
  | calNextReceive (p : PortNo) (h : BitVec 256) (e : FecErrs)
  /-- CAL_DEFER_RECEIVE (R304). -/
  | calDeferReceive (p : PortNo) (h : BitVec 256) (e : FecErrs)
  /-- CAL_START_RECEIVE (R303). -/
  | calStartReceive (p : PortNo) (h : BitVec 256) (e : FecErrs)
  /-- CAL_END_RECEIVE (R303). -/
  | calEndReceive (p : PortNo) (h : BitVec 256) (e : FecErrs)
  /-- PORT_RETRAIN (R284). -/
  | portRetrain (p : PortNo)
  /-- PORT_HOLD_DOWN (R284). -/
  | portHoldDown (p : PortNo)
  /-- PORT_SIGNAL_LOSS (R430). -/
  | portSignalLoss (p : PortNo)
  /-- PORT_SIGNAL_RETURN (R449). -/
  | portSignalReturn (p : PortNo)
  /-- FAB_SQ_DOORBELL (R291). -/
  | fabSqDoorbell (n : JobNo)
  /-- FAB_SQ_POLL_EXPIRE (R291). -/
  | fabSqPollExpire (n : JobNo)
  /-- FAB_SEND_PUT (R291). -/
  | fabSendPut (who : Option JobNo)
  /-- FAB_SEND_GET (R291). -/
  | fabSendGet (who : Option JobNo)
  /-- FAB_SEND_AMO (R291). -/
  | fabSendAmo (n : JobNo)
  /-- FAB_SEND_COL (R300). -/
  | fabSendCol (n : JobNo) (gate : Bool)
  /-- FAB_PACKET_SEND (R293). -/
  | fabPacketSend (p : PortNo) (slot : Bool)
  /-- FAB_CQ_COAL_TIMEOUT (R296). -/
  | fabCqCoalTimeout (n : JobNo)
  /-- FAB_TAG_TIMEOUT (R297). -/
  | fabTagTimeout (tag : BitVec 16)
  /-- FAB_MSG_RELEASE (R298). -/
  | fabMsgRelease (n : JobNo) (slot : Fin 16) (rank : BitVec 16)
  /-- FAB_SQ_DISABLE (R291). -/
  | fabSqDisable (n : JobNo)
  /-- FAB_SELF_WRITE (R462). -/
  | fabSelfWrite (v : Word)
  /-- SLP_CAL_WINDOW (R303). -/
  | slpCalWindow (p : PortNo)
  /-- SLP_CAL_WINDOW_END (R303). -/
  | slpCalWindowEnd (p : PortNo)
  /-- SLP_CAL_DEFER (R304). -/
  | slpCalDefer (p : PortNo)
  /-- STEP_ARM (R324). -/
  | stepArm (n : JobNo)
  /-- STASH_ASSIGN_DONE (R316). -/
  | stashAssignDone (n : JobNo)
  /-- GATE_TIMEOUT (R324). -/
  | gateTimeout (n : JobNo)
  /-- OWL_JOB_STOP (R346). -/
  | owlJobStop (n : JobNo) (code : BitVec 8)
  /-- OWL_FORCE_FENCE (R343). -/
  | owlForceFence
  /-- OWL_CLR_SPARE (R348). -/
  | owlClrSpare
  /-- OWL_FORCE_SNAP (R348). -/
  | owlForceSnap
  /-- OWL_INTERVAL (R347). -/
  | owlInterval
  /-- OWL_LOG_RESTART (R349). -/
  | owlLogRestart (i : Fin 3) (v : Word)
  /-- SQR_FIRST_TOUCH_DONE (R353). -/
  | sqrFirstTouchDone (pg : BitVec 25)
  /-- SQR_SWEEP_SEND (R353). -/
  | sqrSweepSend (pg : BitVec 25)
  /-- SQR_BUDGET_QUANTUM (R354). -/
  | sqrBudgetQuantum
  /-- SQR_MERGE_DONE (R355). -/
  | sqrMergeDone (n : JobNo)
  /-- SQR_START (R352). -/
  | sqrStart (n : JobNo)
  /-- SQR_ROLLBACK (R357). -/
  | sqrRollback (n : JobNo)
  /-- SQR_PREPARE (R358). -/
  | sqrPrepare (n : JobNo)
  /-- SQR_PUSH (R358). -/
  | sqrPush (n : JobNo)
  /-- SQR_SEND (R358). -/
  | sqrSend (n : JobNo)
  /-- SQR_REPARITY (R358). -/
  | sqrReparity (n : JobNo)
  /-- SQR_PHASE_DONE (R358). -/
  | sqrPhaseDone (n : JobNo)
  /-- SQ_DOORBELL (R370). -/
  | sqDoorbell (q : QueueNo) (v : Word) (ep : Bool)
  /-- CMD_FETCH (R378). -/
  | cmdFetch (q : QueueNo) (e : HostEnd)
  /-- CMD_HELD_ACCEPT (R379). -/
  | cmdHeldAccept (sid : StreamNo)
  /-- CMD_GAP_TIMEOUT (R378). -/
  | cmdGapTimeout (sid : StreamNo) (seq : BitVec 32)
  /-- NOP (R373). -/
  | nop (q : QueueNo)
  /-- RUN (R390). -/
  | run (q : QueueNo)
  /-- WAIT (R373). -/
  | wait (q : QueueNo)
  /-- SUSPEND (R392). -/
  | suspend (q : QueueNo)
  /-- RESUME (R392). -/
  | resume (q : QueueNo)
  /-- CANCEL (R392). -/
  | cancel (q : QueueNo)
  /-- RELEASE (R373). -/
  | release (q : QueueNo)
  /-- CONTROL_CMD_COMPLETE (R393). -/
  | controlCmdComplete (sid : StreamNo)
  /-- RUN_START (R391). -/
  | runStart (sid : StreamNo)
  /-- RUN_DONE (R392). -/
  | runDone (sid : StreamNo)
  /-- RUN_SUSPEND_DONE (R392). -/
  | runSuspendDone (sid : StreamNo)
  /-- RUN_CANCEL_DONE (R392). -/
  | runCancelDone (sid : StreamNo)
  /-- JOURNAL_SCAN (R385). -/
  | journalScan
  /-- CMD_JRNL_ENABLE (R386). -/
  | cmdJrnlEnable (rcv : Bool)
  /-- JRNL_ZERO_DONE (R386). -/
  | jrnlZeroDone
  /-- CMD_PAUSE (R387). -/
  | cmdPause (pause : Bool)
  /-- JRNL_COPY_DONE (R387). -/
  | jrnlCopyDone
  /-- CMD_STREAM_RESET (R396). -/
  | cmdStreamReset (sid : StreamNo)
  /-- JOB_CORES_WRITE (R395). -/
  | jobCoresWrite (n : JobNo) (m : Fin 9) (v : Word)
  /-- SQ_EN_WRITE (R371). -/
  | sqEnWrite (q : QueueNo) (en : Bool)
  /-- CAL_SLOT (R397). -/
  | calSlot (e : JobNo)
  /-- CAL_DEADLINE (R398). -/
  | calDeadline (e : JobNo)
  /-- FLR (R367). -/
  | flr
  /-- BAR2_READ (R365). -/
  | bar2Read (off : BitVec 41) (n : BitVec 13)
  /-- BAR2_WRITE (R364). -/
  | bar2Write (off : BitVec 41) (data : List Byte) (ep : Bool)
  /-- BAR2_ATOMIC (R361). -/
  | bar2Atomic (off : BitVec 41) (op : AtomicOp) (sz : AtomicSize) (a : BitVec 128) (cmp : BitVec 128)
  /-- PCIE_CPL_TIMEOUT (R366). -/
  | pcieCplTimeout (r : HostReader)
  /-- AON_TICK (R407). -/
  | aonTick
  /-- AON_TICK_READ (R434). -/
  | aonTickRead
  /-- WAKE_EVENT (R408). -/
  | wakeEvent (cause : Fin 8)
  /-- AON_WAKE_TIMER (R408). -/
  | aonWakeTimer
  /-- STATE_EXIT_DONE (R409). -/
  | stateExitDone (bad : List StackNo) (lanes : List (BitVec 4))
  /-- LEAVE_BUDGET_RECOMPUTE (R411). -/
  | leaveBudgetRecompute (watts : Nat)
  /-- LEAVE_GRANT (R414). -/
  | leaveGrant
  /-- LEAVE_TIMEOUT (R416). -/
  | leaveTimeout (c : CoreNo) (p : PlaneNo)
  /-- LEAVE_RETURN (R413). -/
  | leaveReturn (c : CoreNo) (p : PlaneNo)
  /-- CAP_CLOCK_STEP (R417). -/
  | capClockStep (avg : Nat) (ack : Bool)
  /-- PACE_STEP (R417). -/
  | paceStep (avg : Nat)
  /-- TEMP_LIMIT (R417). -/
  | tempLimit (t : Nat) (ack : Bool)
  /-- THERM_CRIT (R417). -/
  | thermCrit (t : Nat)
  /-- VDD_DROOP (R418). -/
  | vddDroop
  /-- PLL_LOCK_LOSS (R404). -/
  | pllLockLoss (p : Pll)
  /-- RAIL_FAULT (R477). -/
  | railFault (rail : Rail) (us : Nat)
  /-- COLD_RESET (R420). -/
  | coldReset (perst : Bool)
  /-- WARM_RESET (R420). -/
  | warmReset (key : Word)
  /-- PCIE_HOT_RESET (R420). -/
  | pcieHotReset
  /-- COMPUTE_RESET (R421). -/
  | computeReset (key : Word)
  /-- COMPUTE_RESET_DONE (R421). -/
  | computeResetDone
  /-- RST_JOB (R422). -/
  | rstJob (n : JobNo)
  /-- JOB_RESET_DONE (R422). -/
  | jobResetDone (n : JobNo)
  /-- RST_CORE (R420). -/
  | rstCore (c : CoreNo)
  /-- CORE_RESET_DONE (R420). -/
  | coreResetDone (c : CoreNo)
  /-- BOOT_FUSE (R435). -/
  | bootFuse (ok : Bool) (trng : Bool)
  /-- BOOT_MANIFEST (R441). -/
  | bootManifest (flash : Bool) (bad : List (Fin 256)) (x : PcieUp)
  /-- BOOT_MP_LOAD (R435). -/
  | bootMpLoad (flash : Bool)
  /-- BOOT_TRAIN (R435). -/
  | bootTrain (x : TrainFacts)
  /-- BOOT_CORE_LOAD (R444). -/
  | bootCoreLoad (miss : List (CoreNo × Nat))
  /-- CHUNK_RESEND_ROUND (R445). -/
  | chunkResendRound (c : CoreNo) (bad : List Nat)
  /-- BOOT_QUALIFY (R448). -/
  | bootQualify (tests : List LaneTest)
  /-- BOOT_PEER (R462). -/
  | bootPeer (p : PortNo) (x : PeerId)
  /-- BOOT_READY (R437). -/
  | bootReady
  /-- STAGE_CHUNK (R443). -/
  | stageChunk (i : Fin 1024)
  /-- STAGE_HBM (R450). -/
  | stageHbm
  /-- VERIFY (R443). -/
  | verify
  /-- WRITE_FLASH (R452). -/
  | writeFlash
  /-- FLASH_WRITE_DONE (R452). -/
  | flashWriteDone (ok : Bool)
  /-- ACTIVATE (R451). -/
  | activate
  /-- CORE_IMAGE_RELOAD (R451). -/
  | coreImageReload (c : CoreNo) (miss : List Nat)
  /-- FORCE_RECOVERY (R441). -/
  | forceRecovery
  /-- WRITE_IDCACHE (R452). -/
  | writeIdcache
  /-- ABORT (R468). -/
  | abort
  /-- QUOTE (R461). -/
  | quote
  /-- EXTEND (R460). -/
  | extend (m : Fin 16)
  /-- DEBUG_CHALLENGE (R465). -/
  | debugChallenge
  /-- DEBUG_UNLOCK (R466). -/
  | debugUnlock
  /-- DEBUG_LOCK (R466). -/
  | debugLock
  /-- DEBUG_EXPIRE (R466). -/
  | debugExpire
  /-- SET_OWNER (R456). -/
  | setOwner
  /-- ADVANCE_SVN (R442). -/
  | advanceSvn (v : BitVec 16)
  /-- REFCLK_LOSS (R402). -/
  | refclkLoss (slp : Bool)
  /-- REFCLK_RETURN (R402). -/
  | refclkReturn (slp : Bool) (drift : Bool)
  /-- RAIL_RECOVERY (R477). -/
  | railRecovery (us : Nat) (perst : Bool)
  /-- PORT_RETRAIN_DONE (R284). -/
  | portRetrainDone (p : PortNo) (lanes : BitVec 4)
  /-- LINK_CREDIT_RECEIVE (R285). -/
  | linkCreditReceive (p : PortNo) (h : BitVec 256) (e : FecErrs)
  /-- CLOCK_STEP_UP (R417). -/
  | clockStepUp (avg : Nat) (t : Nat) (ack : Bool)
  /-- THERM_CRIT_RELEASE (R417). -/
  | thermCritRelease (t : Nat)
  deriving DecidableEq, Repr

end Sys2Proof
end

