-- ==== Sys2Proof/Machine/State.lean ====
section
/-! DEFINITION. The state: everything the device holds, and the queue of commands that wait. -/

namespace Sys2Proof.Machine

/-- Reasons of a fault: the block has none. What the spec calls an error is an effect on the state (an error bit, a
record, an interrupt), and a command that cannot act leaves the state as it is. -/
inductive Fault where
  deriving DecidableEq, Repr

/-- Reasons of a refusal. -/
inductive Refusal where
  /-- A command without a meaning: raised by no arm. Safe. -/
  | notModelled (mnemonic : String)
  deriving DecidableEq, Repr

/-- The machine: the device, and the commands that wait, first in, first out. -/
structure State extends Dev where
  pending : List Instr := []
  deriving DecidableEq, Repr

/-- The device changed; the queue stays. -/
def State.onDev (s : State) (f : Dev → Dev) : State := { s with toDev := f s.toDev }

/-- The machine after power-on (R420): every register at its reset value but RST_CAUSE, which names the power-on;
memory, fuses and flash with nothing listed; no command waits. -/
def State.reset : State := { toDev := ({} : Dev).coldReset 0, pending := [] }

end Sys2Proof.Machine
end

