-- ==== Sys2Proof/Machine/ExecAccess.lean ====
section
/-! DEFINITION. Meanings of commands: tables, banks, address generators and queues. -/

namespace Sys2Proof.Machine

/-- TLOAD (R134). A TLOAD starts loading the 4,160-byte activation table from core memory. -/
def execTload (c : CoreNo) (l : BitVec 60) (w : LRest) (s : State) : Host.Outcome State Fault Refusal :=
  .next (s.onDev (fun d => d.clocked (fun d => d.issueA c.val (w.loadWord 0x2 l))))

/-- TABLE_LOAD_DONE (R134). When the last table read returns, the table is checked and written into the table RAM with
its poison bits. -/
def execTableLoadDone (c : CoreNo) (s : State) : Host.Outcome State Fault Refusal :=
  .next (s.onDev (fun d => d.clocked (fun d => d.tableDone c.val)))

/-- CSLD (R169). A CSLD loads 256 bytes into the 64 entries of a column scale bank. -/
def execCsld (c : CoreNo) (l : BitVec 60) (w : LRest) (s : State) : Host.Outcome State Fault Refusal :=
  .next (s.onDev (fun d => d.clocked (fun d => d.issueA c.val (w.loadWord 0x3 l))))

/-- BANK_WRITE_APPLY (R120). A held column scale bank write takes effect once no unretired operation or running drain
names the bank. -/
def execBankWriteApply (c : CoreNo) (plane : Fin 2) (bank : Fin 4) (s : State) : Host.Outcome State Fault Refusal :=
  .next (s.onDev (fun d => d.clocked (fun d => d.bankApply c.val plane.val bank.val)))

/-- AGSET (R169). An AGSET writes one field of an address generator; a write of BASE also sets the cursor. -/
def execAgset (c : CoreNo) (inStore : Bool) (x : BitVec 60) (w : LRest) (s : State) : Host.Outcome State Fault Refusal :=
  .next (s.onDev (fun d => d.clocked (fun d => d.issueA c.val (if inStore then w.storeWord 0x4 x else w.loadWord 0x4 x))))

/-- LDQ (R169). An LDQ hands REP patterns of a generator to the load engine of its queue. -/
def execLdq (c : CoreNo) (l : BitVec 60) (w : LRest) (s : State) : Host.Outcome State Fault Refusal :=
  .next (s.onDev (fun d => d.clocked (fun d => d.issueA c.val (w.loadWord 0x1 l))))

/-- STQ (R169). An STQ hands REP patterns of a generator to the store engine of its queue. -/
def execStq (c : CoreNo) (t : BitVec 60) (w : LRest) (s : State) : Host.Outcome State Fault Refusal :=
  .next (s.onDev (fun d => d.clocked (fun d => d.issueA c.val (w.storeWord 0x1 t))))

/-- LOAD_ENTRY_PUSH (R214). A load engine reads a 64-byte block into a reserved queue entry, within its prefetch depth
and class share. -/
def execLoadEntryPush (c : CoreNo) (q : Fin 4) (s : State) : Host.Outcome State Fault Refusal :=
  .next (s.onDev (fun d => d.clocked (fun d => d.loadEntry c.val q.val)))

/-- STORE_BLOCK_WRITE (R175). A store engine writes a queue entry to its target once ordering and held ranges allow
it. -/
def execStoreBlockWrite (c : CoreNo) (sq : Fin 2) (s : State) : Host.Outcome State Fault Refusal :=
  .next (s.onDev (fun d => d.clocked (fun d => d.storeBlock c.val sq.val)))

/-- STORE_WRITE_TIMEOUT (R171). A store write with no acknowledgement within 20 µs ends as a bus error. -/
def execStoreWriteTimeout (c : CoreNo) (s : State) : Host.Outcome State Fault Refusal :=
  .next (s.onDev (fun d => d.clocked (fun d => d.storeTimeout c.val)))

end Sys2Proof.Machine
end

