-- ==== Sys2Proof/Machine/ExecBoot.lean ====
section
/-! DEFINITION. Meanings of commands: boot and firmware. -/

namespace Sys2Proof.Machine

/-- BOOT_FUSE (R435). The boot senses the fuses, starts the TRNG tests and locks the PLLs. -/
def execBootFuse (ok : Bool) (trng : Bool) (s : State) : Host.Outcome State Fault Refusal :=
  .next (s.onDev (fun d => d.clocked (fun d => d.bootFuse ok trng)))

/-- BOOT_MANIFEST (R441). The boot reads the manifest and verifies both signatures, or enters RECOVERY_WAIT. -/
def execBootManifest (flash : Bool) (bad : List (Fin 256)) (x : PcieUp) (s : State) : Host.Outcome State Fault Refusal :=
  .next (s.onDev (fun d => d.clocked (fun d => d.bootManifest flash (bad.map Fin.val) x)))

/-- BOOT_MP_LOAD (R435). The boot loads and digest-checks the trust controller and management processor firmware. -/
def execBootMpLoad (flash : Bool) (s : State) : Host.Outcome State Fault Refusal :=
  .next (s.onDev (fun d => d.clocked (fun d => d.bootMpLoad flash)))

/-- BOOT_TRAIN (R435). The boot runs core self-test, the bridge wire test, HBM and Sloer training and builds the
trees. -/
def execBootTrain (x : TrainFacts) (s : State) : Host.Outcome State Fault Refusal :=
  .next (s.onDev (fun d => d.clocked (fun d => d.bootTrain x)))

/-- BOOT_CORE_LOAD (R444). The core image is broadcast to every good core, with resends. -/
def execBootCoreLoad (miss : List (CoreNo × Nat)) (s : State) : Host.Outcome State Fault Refusal :=
  .next (s.onDev (fun d => d.clocked (fun d => d.bootCoreLoad (miss.map (fun p => (p.1.val, p.2))))))

/-- CHUNK_RESEND_ROUND (R445). After 20 µs a core requests its missing chunks again, and is fenced after eight rounds.
-/
def execChunkResendRound (c : CoreNo) (bad : List Nat) (s : State) : Host.Outcome State Fault Refusal :=
  .next (s.onDev (fun d => d.clocked (fun d => d.chunkResend c.val bad)))

/-- BOOT_QUALIFY (R448). Every trained port runs a 200 ms PRBS31 qualification, and the ports below MIN_WIDTH are
held. -/
def execBootQualify (tests : List LaneTest) (s : State) : Host.Outcome State Fault Refusal :=
  .next (s.onDev (fun d => d.clocked (fun d => d.bootQualify tests)))

/-- BOOT_PEER (R462). The identity exchange runs on every qualified port. -/
def execBootPeer (p : PortNo) (x : PeerId) (s : State) : Host.Outcome State Fault Refusal :=
  .next (s.onDev (fun d => d.clocked (fun d => d.bootPeer p.val x)))

/-- BOOT_READY (R437). The floor plan is published, READY is set and the READY interrupt is sent. -/
def execBootReady (s : State) : Host.Outcome State Fault Refusal :=
  .next (s.onDev (fun d => d.clocked (fun d => d.bootReady)))

/-- STAGE_CHUNK (R443). FWL_CMD STAGE_CHUNK stores one 4 KiB chunk from the data window in the staging SRAM. -/
def execStageChunk (i : Fin 1024) (s : State) : Host.Outcome State Fault Refusal :=
  .next (s.onDev (fun d => d.atReg (aFwl 0x110) (fun d => d.stageChunk i.val)))

/-- STAGE_HBM (R450). FWL_CMD STAGE_HBM copies FWL_STAGE_LEN bytes from HBM into the staging SRAM. -/
def execStageHbm (s : State) : Host.Outcome State Fault Refusal :=
  .next (s.onDev (fun d => d.atReg (aFwl 0x110) (fun d => d.stageHbm)))

/-- VERIFY (R443). FWL_CMD VERIFY checks the staged image as R441 does and sets VERIFIED. -/
def execVerify (s : State) : Host.Outcome State Fault Refusal :=
  .next (s.onDev (fun d => d.atReg (aFwl 0x110) (fun d => d.fwVerify)))

/-- WRITE_FLASH (R452). FWL_CMD WRITE_FLASH erases and programs the image slot, manifest last. -/
def execWriteFlash (s : State) : Host.Outcome State Fault Refusal :=
  .next (s.onDev (fun d => d.atReg (aFwl 0x110) (fun d => d.writeFlash)))

/-- FLASH_WRITE_DONE (R452). The programming of the image slot completes. -/
def execFlashWriteDone (ok : Bool) (s : State) : Host.Outcome State Fault Refusal :=
  .next (s.onDev (fun d => d.powered (fun d => d.flashDone ok)))

/-- ACTIVATE (R451). FWL_CMD ACTIVATE resumes a recovery boot, or replaces each changed firmware component live. -/
def execActivate (s : State) : Host.Outcome State Fault Refusal :=
  .next (s.onDev (fun d => d.atReg (aFwl 0x110) (fun d => d.activate)))

/-- CORE_IMAGE_RELOAD (R451). A core outside every job is loaded with the new core image, one core at a time. -/
def execCoreImageReload (c : CoreNo) (miss : List Nat) (s : State) : Host.Outcome State Fault Refusal :=
  .next (s.onDev (fun d => d.clocked (fun d => d.coreReload c.val miss)))

/-- FORCE_RECOVERY (R441). FWL_CMD FORCE_RECOVERY stores a recovery request that the next warm boot consumes. -/
def execForceRecovery (s : State) : Host.Outcome State Fault Refusal :=
  .next (s.onDev (fun d => d.atReg (aFwl 0x110) (fun d => d.forceRecovery)))

/-- WRITE_IDCACHE (R452). FWL_CMD WRITE_IDCACHE writes the staged identity cache when it hashes up to the root key. -/
def execWriteIdcache (s : State) : Host.Outcome State Fault Refusal :=
  .next (s.onDev (fun d => d.atReg (aFwl 0x110) (fun d => d.writeIdCache)))

/-- ABORT (R468). FWL_CMD ABORT abandons the firmware load operation in progress. -/
def execAbort (s : State) : Host.Outcome State Fault Refusal :=
  .next (s.onDev (fun d => d.atReg (aFwl 0x110) (fun d => d.fwAbort)))

end Sys2Proof.Machine
end

