-- ==== Sys2Proof/Machine/ExecClock.lean ====
section
/-! DEFINITION. Meanings of commands: reference clocks, recovery and return. -/

namespace Sys2Proof.Machine

/-- REFCLK_LOSS (R402). When REFCLK_100 or REFCLK_SLP stops, REF_LOSS is set, DISC clears and the always-on tick free-
runs on its internal oscillator. -/
def execRefclkLoss (slp : Bool) (s : State) : Host.Outcome State Fault Refusal :=
  .next (s.onDev (fun d => d.refLoss slp))

/-- REFCLK_RETURN (R402). When REFCLK_100 returns, the always-on tick locks to it again and DISC is set in AON_STAT.
-/
def execRefclkReturn (slp : Bool) (drift : Bool) (s : State) : Host.Outcome State Fault Refusal :=
  .next (s.onDev (fun d => d.refReturn slp drift))

/-- RAIL_RECOVERY (R477). Once every rail has been back in range for 1 ms and PERST_N is high, the device leaves the
cold reset that a rail fault held it in. -/
def execRailRecovery (us : Nat) (perst : Bool) (s : State) : Host.Outcome State Fault Refusal :=
  .next (s.onDev (fun d => d.railRecovery us perst))

/-- PORT_RETRAIN_DONE (R284). A retraining port comes back up at full or narrower width, setting WIDTH_DROP when
narrower, and resumes sending from its replay buffer. -/
def execPortRetrainDone (p : PortNo) (lanes : BitVec 4) (s : State) : Host.Outcome State Fault Refusal :=
  .next (s.onDev (fun d => d.powered (fun d => d.portRetrainDone p.val lanes.toNat)))

/-- LINK_CREDIT_RECEIVE (R285). A received LINK CREDIT packet returns its flits of credit in its class to the sender's
port output. -/
def execLinkCreditReceive (p : PortNo) (h : BitVec 256) (e : FecErrs) (s : State) : Host.Outcome State Fault Refusal :=
  .next (s.onDev (fun d => d.powered (fun d => d.linkReceiveFw p.val 0 h.toNat e)))

/-- CLOCK_STEP_UP (R417). Once the cap or temperature cause is gone and pacing is lifted, the controller raises
VDD_ARR and steps the main clock back up one step per 100 µs. -/
def execClockStepUp (avg : Nat) (t : Nat) (ack : Bool) (s : State) : Host.Outcome State Fault Refusal :=
  .next (s.onDev (fun d => d.stepUp avg t ack))

/-- THERM_CRIT_RELEASE (R417). When the hottest sensor falls 10 °C below TEMP_LIM, the controller ungates the fast
clocks and releases THERM_N. -/
def execThermCritRelease (t : Nat) (s : State) : Host.Outcome State Fault Refusal :=
  .next (s.onDev (fun d => d.thermRelease t))

end Sys2Proof.Machine
end

