-- ==== Sys2Proof/Machine/ExecCommand.lean ====
section
/-! DEFINITION. Meanings of commands: the command block. -/

namespace Sys2Proof.Machine

/-- SQ_DOORBELL (R370). A BAR4 write of a tail index starts command fetching on its queue, or puts the queue into
ERROR when the index is out of range. -/
def execSqDoorbell (q : QueueNo) (v : Word) (ep : Bool) (s : State) : Host.Outcome State Fault Refusal :=
  .next (s.onDev (fun d => d.running (fun d => d.sqDoorbell q.val v.toNat ep)))

/-- CMD_FETCH (R378). A fetched command is checked and classified by sequence number: accepted, held, answered as a
duplicate or refused. -/
def execCmdFetch (q : QueueNo) (e : HostEnd) (s : State) : Host.Outcome State Fault Refusal :=
  .next (s.onDev (fun d => d.running (fun d => d.cmdFetch q.val e)))

/-- CMD_HELD_ACCEPT (R379). A held command is accepted once it is next in sequence and its predecessor is released. -/
def execCmdHeldAccept (sid : StreamNo) (s : State) : Host.Outcome State Fault Refusal :=
  .next (s.onDev (fun d => d.running (fun d => d.heldAccept sid.val)))

/-- CMD_GAP_TIMEOUT (R378). A command held as a gap for CMD_GAP_TMO ticks is refused with SEQ_GAP. -/
def execCmdGapTimeout (sid : StreamNo) (seq : BitVec 32) (s : State) : Host.Outcome State Fault Refusal :=
  .next (s.onDev (fun d => d.running (fun d => d.gapTimeout sid.val seq.toNat)))

/-- NOP (R373). The NOP command completes OK at acceptance. -/
def execNop (q : QueueNo) (s : State) : Host.Outcome State Fault Refusal :=
  .next (s.onDev (fun d => d.running (fun d => d.cmdOpcode q.val 0)))

/-- RUN (R390). The RUN command reads its launch descriptor and queues a long operation. -/
def execRun (q : QueueNo) (s : State) : Host.Outcome State Fault Refusal :=
  .next (s.onDev (fun d => d.running (fun d => d.cmdOpcode q.val 1)))

/-- WAIT (R373). The WAIT command waits for a target command to reach a terminal state. -/
def execWait (q : QueueNo) (s : State) : Host.Outcome State Fault Refusal :=
  .next (s.onDev (fun d => d.running (fun d => d.cmdOpcode q.val 2)))

/-- SUSPEND (R392). The SUSPEND command saves a running RUN, or suspends a queued one. -/
def execSuspend (q : QueueNo) (s : State) : Host.Outcome State Fault Refusal :=
  .next (s.onDev (fun d => d.running (fun d => d.cmdOpcode q.val 3)))

/-- RESUME (R392). The RESUME command returns a SUSPENDED RUN to QUEUED, or records a pending resume. -/
def execResume (q : QueueNo) (s : State) : Host.Outcome State Fault Refusal :=
  .next (s.onDev (fun d => d.running (fun d => d.cmdOpcode q.val 4)))

/-- CANCEL (R392). The CANCEL command cancels its target command. -/
def execCancel (q : QueueNo) (s : State) : Host.Outcome State Fault Refusal :=
  .next (s.onDev (fun d => d.running (fun d => d.cmdOpcode q.val 5)))

/-- RELEASE (R373). The RELEASE command releases a terminal target command at acceptance. -/
def execRelease (q : QueueNo) (s : State) : Host.Outcome State Fault Refusal :=
  .next (s.onDev (fun d => d.running (fun d => d.cmdOpcode q.val 6)))

/-- CONTROL_CMD_COMPLETE (R393). A WAIT, SUSPEND, RESUME or CANCEL completes when its target reaches the required
state, writing RESULT and the DONE word. -/
def execControlCmdComplete (sid : StreamNo) (s : State) : Host.Outcome State Fault Refusal :=
  .next (s.onDev (fun d => d.running (fun d => d.controlComplete sid.val)))

/-- RUN_START (R391). A QUEUED RUN whose start is due loads or restores its cores and starts their streams, or fails
with HAZARD. -/
def execRunStart (sid : StreamNo) (s : State) : Host.Outcome State Fault Refusal :=
  .next (s.onDev (fun d => d.running (fun d => d.runStart sid.val)))

/-- RUN_DONE (R392). A RUN whose streams have all halted becomes DONE and writes RESULT and the DONE word. -/
def execRunDone (sid : StreamNo) (s : State) : Host.Outcome State Fault Refusal :=
  .next (s.onDev (fun d => d.running (fun d => d.runDone sid.val)))

/-- RUN_SUSPEND_DONE (R392). When every save of a suspending RUN is complete, it sets IMAGE and frees its cores. -/
def execRunSuspendDone (sid : StreamNo) (s : State) : Host.Outcome State Fault Refusal :=
  .next (s.onDev (fun d => d.running (fun d => d.runSuspended sid.val)))

/-- RUN_CANCEL_DONE (R392). When the core resets of a cancelling RUN complete, it becomes CANCELLED. -/
def execRunCancelDone (sid : StreamNo) (s : State) : Host.Outcome State Fault Refusal :=
  .next (s.onDev (fun d => d.running (fun d => d.runCancelled sid.val)))

/-- JOURNAL_SCAN (R385). After a compute reset or a recovering enable, the journal is scanned and running commands are
requeued. -/
def execJournalScan (s : State) : Host.Outcome State Fault Refusal :=
  .next (s.onDev (fun d => d.running (fun d => d.journalScan)))

/-- CMD_JRNL_ENABLE (R386). A write of CMD_JRNL_CFG.EN = 1 scans the journal with RECOVER, or zeroes both copies
without it. -/
def execCmdJrnlEnable (rcv : Bool) (s : State) : Host.Outcome State Fault Refusal :=
  .next (s.onDev (fun d => d.atReg (aCmd 0x104) (fun d => d.jrnEnable rcv)))

/-- JRNL_ZERO_DONE (R386). The zeroing of both journal copies completes. -/
def execJrnlZeroDone (s : State) : Host.Outcome State Fault Refusal :=
  .next (s.onDev (fun d => d.running (fun d => d.jrnZeroed)))

/-- CMD_PAUSE (R387). A write of CMD_CTRL.PAUSE stops or resumes acceptance, and on resume copies the journal to a
replaced copy. -/
def execCmdPause (pause : Bool) (s : State) : Host.Outcome State Fault Refusal :=
  .next (s.onDev (fun d => d.atReg (aCmd 0x100) (fun d => d.cmdPause pause)))

/-- JRNL_COPY_DONE (R387). The copy of the good journal to the new base completes, JRNL_DEGRADED clears and acceptance
resumes. -/
def execJrnlCopyDone (s : State) : Host.Outcome State Fault Refusal :=
  .next (s.onDev (fun d => d.running (fun d => d.jrnCopied)))

/-- CMD_STREAM_RESET (R396). A write of CMD_STREAM_RESET unbinds an idle stream, or sets STREAM_BUSY. -/
def execCmdStreamReset (sid : StreamNo) (s : State) : Host.Outcome State Fault Refusal :=
  .next (s.onDev (fun d => d.atReg (aCmd 0x148) (fun d => d.streamReset sid.val)))

/-- JOB_CORES_WRITE (R395). A write of CMD_JOB_n_CORES_m adds or removes member cores where the conditions allow it.
-/
def execJobCoresWrite (n : JobNo) (m : Fin 9) (v : Word) (s : State) : Host.Outcome State Fault Refusal :=
  .next (s.onDev (fun d => d.atReg (aCmdJ n.val (8 + 4 * m.val)) (fun d => d.jobCoresWrite n.val m.val v)))

/-- SQ_EN_WRITE (R371). A write of CMD_SQ_q_CFG.EN enables a queue, or returns it to IDLE with HEAD kept. -/
def execSqEnWrite (q : QueueNo) (en : Bool) (s : State) : Host.Outcome State Fault Refusal :=
  .next (s.onDev (fun d => d.atReg (aSq q.val 8) (fun d => d.sqEnWrite q.val en)))

/-- CAL_SLOT (R397). At a calendar slot the stream's queued CAL command is released for its start, or UNDER_CNT counts
a lost slot. -/
def execCalSlot (e : JobNo) (s : State) : Host.Outcome State Fault Refusal :=
  .next (s.onDev (fun d => d.running (fun d => d.calSlot e.val)))

/-- CAL_DEADLINE (R398). A command not terminal by slot plus DEADLINE increments MISS_CNT. -/
def execCalDeadline (e : JobNo) (s : State) : Host.Outcome State Fault Refusal :=
  .next (s.onDev (fun d => d.running (fun d => d.calDeadline e.val)))

/-- FLR (R367). A Function Level Reset performs a compute reset and disables every submission queue. -/
def execFlr (s : State) : Host.Outcome State Fault Refusal :=
  .next (s.onDev (fun d => d.powered Dev.flr))

end Sys2Proof.Machine
end

