-- ==== Sys2Proof/Machine/ExecDma.lean ====
section
/-! DEFINITION. Meanings of commands: DMA channels. -/

namespace Sys2Proof.Machine

/-- DMA_CH_DOORBELL (R252). A doorbell write makes a waiting channel re-read its descriptor, or sets DB_PEND. -/
def execDmaChDoorbell (ch : ChanNo) (s : State) : Host.Outcome State Fault Refusal :=
  .next (s.onDev (fun d => d.atReg (aDmaC ch.val 0x18) (fun d => d.dmaDoorbell ch.val)))

/-- DMA_POLL_EXPIRE (R252). Every POLL × 1,024 cycles a waiting channel re-reads its descriptor. -/
def execDmaPollExpire (ch : ChanNo) (s : State) : Host.Outcome State Fault Refusal :=
  .next (s.onDev (fun d => d.clocked (fun d => d.dmaPoll ch.val)))

/-- DMA_DESC_FETCH (R252). A channel reads a descriptor and starts it when OWN is 1, or enters WAIT. -/
def execDmaDescFetch (ch : ChanNo) (fail : Bool) (s : State) : Host.Outcome State Fault Refusal :=
  .next (s.onDev (fun d => d.clocked (fun d => d.dmaFetchEnd ch.val fail)))

/-- DMA_DATA_MOVE (R256). A channel moves the data of a descriptor from its source stream to its destination pattern.
-/
def execDmaDataMove (ch : ChanNo) (j : Fin 4) (s : State) : Host.Outcome State Fault Refusal :=
  .next (s.onDev (fun d => d.clocked (fun d => d.dmaMove ch.val j.val)))

/-- DMA_XFER_FAIL (R260). A failed source read or destination write ends the descriptor with STATUS 0x0B and a reason.
-/
def execDmaXferFail (ch : ChanNo) (j : Fin 4) (write : Bool) (s : State) : Host.Outcome State Fault Refusal :=
  .next (s.onDev (fun d => d.clocked (fun d => d.dmaFailEnd ch.val j.val write)))

/-- DMA_WRITE_TIMEOUT (R260). A core-memory write with no acknowledgement within 100 µs fails with REASON 4. -/
def execDmaWriteTimeout (ch : ChanNo) (j : Fin 4) (s : State) : Host.Outcome State Fault Refusal :=
  .next (s.onDev (fun d => d.clocked (fun d => d.dmaTimeout ch.val j.val)))

/-- DMA_WRITEBACK (R258). Once all of its writes are complete, the descriptor is written back and HEAD advances. -/
def execDmaWriteback (ch : ChanNo) (s : State) : Host.Outcome State Fault Refusal :=
  .next (s.onDev (fun d => d.clocked (fun d => d.dmaWriteback ch.val)))

/-- DMA_COAL_TIMEOUT (R265). COAL_TIME ticks after the oldest pending completion, the channel sends its interrupt. -/
def execDmaCoalTimeout (ch : ChanNo) (s : State) : Host.Outcome State Fault Refusal :=
  .next (s.onDev (fun d => d.clocked (fun d => d.dmaCoal ch.val)))

/-- DMA_CH_EN (R266). A write of EN starts fetching from an IDLE channel, or stops fetching when it is 0. -/
def execDmaChEn (ch : ChanNo) (en : Bool) (s : State) : Host.Outcome State Fault Refusal :=
  .next (s.onDev (fun d => d.atReg (aDmaC ch.val 0) (fun d => d.dmaEn ch.val en)))

/-- DMA_CH_DISABLE (R267). A write of DISABLE = 1 drops all work of the channel, and DISABLE = 0 returns it to IDLE.
-/
def execDmaChDisable (ch : ChanNo) (dis : Bool) (s : State) : Host.Outcome State Fault Refusal :=
  .next (s.onDev (fun d => d.atReg (aDmaC ch.val 0) (fun d => d.dmaDisableWrite ch.val dis)))

end Sys2Proof.Machine
end

