-- ==== Sys2Proof/Machine/ExecEpoch.lean ====
section
/-! DEFINITION. Meanings of commands: register writes, configuration epochs and core fences. -/

namespace Sys2Proof.Machine

/-- REG_WRITE (R490). A BAR0 write to a register with no behaviour of its own applies field by field by access type;
RWQ fields are refused with CFG_NEEDS_QUIESCE unless the block is quiesced. -/
def execRegWrite (a : BitVec 26) (n : Fin 9) (v : BitVec 64) (ep : Bool) (s : State) : Host.Outcome State Fault Refusal :=
  .next (s.onDev (fun d => d.bar0Write a.toNat n.val v ep))

/-- CFG_COMMIT (R425). A write of CFG_COMMIT with a non-zero EPOCH arms the page for that epoch and shows it in
CFG_PEND.TARGET. -/
def execCfgCommit (page : PageNo) (e : BitVec 16) (s : State) : Host.Outcome State Fault Refusal :=
  .next (s.onDev (fun d => d.atPage (pageAddr page) (Dev.commitAt (pageAddr page) e.toNat)))

/-- CFG_COMMIT_DISARM (R426). A write of CFG_COMMIT with EPOCH 0 disarms the page, resets its shadows to the values in
effect and clears TARGET and LATE. -/
def execCfgCommitDisarm (page : PageNo) (s : State) : Host.Outcome State Fault Refusal :=
  .next (s.onDev (fun d => d.atPage (pageAddr page) (fun d => d.disarm (pageAddr page))))

/-- CORE_EPOCH_APPLY (R427). In the cycle after a core reaches epoch E, every page of that core armed for E applies
its shadows. -/
def execCoreEpochApply (c : CoreNo) (e : BitVec 16) (s : State) : Host.Outcome State Fault Refusal :=
  .next (s.onDev (fun d => d.clocked (fun d => d.coreEpoch c.val e.toNat)))

/-- RST_EPOCH_REQ (R428). A write of RST_EPOCH_REQ names an epoch and a scope and starts the device epoch sequencer,
or sets EPOCH_BUSY while the sequencer is busy. -/
def execRstEpochReq (all : Bool) (job : JobNo) (e : BitVec 16) (s : State) : Host.Outcome State Fault Refusal :=
  .next (s.onDev (fun d => d.atReg (aRst 0x118) (fun d => d.epochReq all job.val e.toNat)))

/-- DEVICE_EPOCH_APPLY (R428). Once every core in the scope has reached E, every device page armed for E applies its
change, and the sequencer writes RST_EPOCH_CUR and sets EPOCH_DONE. -/
def execDeviceEpochApply (s : State) : Host.Outcome State Fault Refusal :=
  .next (s.onDev (fun d => d.clocked Dev.deviceEpoch))

/-- CORE_FENCE_APPLY (R24). A core fence takes effect at an epoch: the spare becomes active or the highest logical ID
is made invalid, and the entry becomes FENCED_RUN. -/
def execCoreFenceApply (s : State) : Host.Outcome State Fault Refusal :=
  .next (s.onDev (fun d => d.clocked Dev.coreFenceApply))

/-- CORE_FENCE_REQUEST (R343). A write of FENCE in a core's CCTL BLK_CTRL requests a core fence, which waits while it
would renumber a core of another job. -/
def execCoreFenceRequest (c : CoreNo) (s : State) : Host.Outcome State Fault Refusal :=
  .next (s.onDev (fun d => d.atReg (aCctl c.val 8) (fun d => d.fenceRequest c.val)))

end Sys2Proof.Machine
end

