-- ==== Sys2Proof/Machine/ExecFabRx.lean ====
section
/-! DEFINITION. Meanings of commands: Sloer packets received, links and ports. -/

namespace Sys2Proof.Machine

/-- PUT_RECEIVE (R295). A received PUT packet is written and its message count updated, completing the message when
every byte has arrived. -/
def execPutReceive (p : PortNo) (h : BitVec 256) (data : List Byte) (e : FecErrs) (s : State) : Host.Outcome State Fault Refusal :=
  .next (s.onDev (fun d => d.running (fun d => d.putReceive p.val h.toNat data e)))

/-- GET_RECEIVE (R282). A received GET reads the requested bytes and returns them in a GET_RSP. -/
def execGetReceive (p : PortNo) (h : BitVec 256) (e : FecErrs) (s : State) : Host.Outcome State Fault Refusal :=
  .next (s.onDev (fun d => d.running (fun d => d.getReceive p.val h.toNat e)))

/-- GET_RSP_RECEIVE (R288). A GET response lands where its tag reserved room, and the tag is freed. -/
def execGetRspReceive (p : PortNo) (h : BitVec 256) (data : List Byte) (e : FecErrs) (s : State) : Host.Outcome State Fault Refusal :=
  .next (s.onDev (fun d => d.running (fun d => d.rspReceive p.val 2 1 h.toNat data e)))

/-- AMO_RECEIVE (R282). A received AMO performs its atomic and returns the old value in an AMO_RSP. -/
def execAmoReceive (p : PortNo) (h : BitVec 256) (data : List Byte) (e : FecErrs) (s : State) : Host.Outcome State Fault Refusal :=
  .next (s.onDev (fun d => d.running (fun d => d.amoReceive p.val h.toNat data e)))

/-- AMO_RSP_RECEIVE (R288). An AMO response lands at its reserved place and frees the tag. -/
def execAmoRspReceive (p : PortNo) (h : BitVec 256) (data : List Byte) (e : FecErrs) (s : State) : Host.Outcome State Fault Refusal :=
  .next (s.onDev (fun d => d.running (fun d => d.rspReceive p.val 5 4 h.toNat data e)))

/-- ACK_RECEIVE (R287). An ACK frees its tag, and the last ACK of a message writes SEND_DONE. -/
def execAckReceive (p : PortNo) (h : BitVec 256) (e : FecErrs) (s : State) : Host.Outcome State Fault Refusal :=
  .next (s.onDev (fun d => d.running (fun d => d.ackReceive p.val h.toNat e)))

/-- FWD_PACKET (R279). An intermediate forwards a VIA packet over its own link group, or drops it when it has no
route. -/
def execFwdPacket (p : PortNo) (h : BitVec 256) (data : List Byte) (mesh : Bool) (e : FecErrs) (s : State) : Host.Outcome State Fault Refusal :=
  .next (s.onDev (fun d => d.running (fun d => d.fwdPacket p.val h.toNat data mesh e)))

/-- COL_UP_RECEIVE (R300). A COL_UP chunk is stored in a slot of its collective ID. -/
def execColUpReceive (p : PortNo) (h : BitVec 256) (data : List Byte) (e : FecErrs) (s : State) : Host.Outcome State Fault Refusal :=
  .next (s.onDev (fun d => d.running (fun d => d.colUpReceive p.val h.toNat data e)))

/-- COL_CHUNK_COMBINE (R300). Once every expected input has arrived, the chunk is combined in fixed order and sent up,
or turned into COL_DN at the root. -/
def execColChunkCombine (id : BitVec 8) (off : BitVec 32) (s : State) : Host.Outcome State Fault Refusal :=
  .next (s.onDev (fun d => d.running (fun d => d.colCombine id.toNat off.toNat)))

/-- COL_DN_RECEIVE (R300). A COL_DN chunk is written locally, copied to the children, and completes the collective
when it is the last chunk. -/
def execColDnReceive (p : PortNo) (h : BitVec 256) (data : List Byte) (e : FecErrs) (s : State) : Host.Outcome State Fault Refusal :=
  .next (s.onDev (fun d => d.running (fun d => d.colDnReceive p.val h.toNat data e)))

/-- MGMT_RECEIVE (R290). A MGMT packet is consumed by the management processor. -/
def execMgmtReceive (p : PortNo) (h : BitVec 256) (data : List Byte) (self : Option Word) (e : FecErrs) (s : State) : Host.Outcome State Fault Refusal :=
  .next (s.onDev (fun d => d.clocked (fun d => d.mgmtReceive p.val h.toNat data self e)))

/-- LINK_CREDIT_SEND (R285). When credits are owed and no packet has left for 32 ns, the receiver sends a LINK CREDIT
packet. -/
def execLinkCreditSend (p : PortNo) (s : State) : Host.Outcome State Fault Refusal :=
  .next (s.onDev (fun d => d.powered (fun d => d.creditSend p.val)))

/-- CAL_NEXT_RECEIVE (R302). A LINK CAL_NEXT packet sets SLP_CAL_NEXT on the non-master end. -/
def execCalNextReceive (p : PortNo) (h : BitVec 256) (e : FecErrs) (s : State) : Host.Outcome State Fault Refusal :=
  .next (s.onDev (fun d => d.powered (fun d => d.linkReceiveFw p.val 4 h.toNat e)))

/-- CAL_DEFER_RECEIVE (R304). A LINK CAL_DEFER from the other end defers the master's window. -/
def execCalDeferReceive (p : PortNo) (h : BitVec 256) (e : FecErrs) (s : State) : Host.Outcome State Fault Refusal :=
  .next (s.onDev (fun d => d.powered (fun d => d.linkReceiveFw p.val 3 h.toNat e)))

/-- CAL_START_RECEIVE (R303). A LINK CAL_START puts the far end of the port into its window. -/
def execCalStartReceive (p : PortNo) (h : BitVec 256) (e : FecErrs) (s : State) : Host.Outcome State Fault Refusal :=
  .next (s.onDev (fun d => d.powered (fun d => d.linkReceiveFw p.val 1 h.toNat e)))

/-- CAL_END_RECEIVE (R303). A LINK CAL_END ends the window at the far end. -/
def execCalEndReceive (p : PortNo) (h : BitVec 256) (e : FecErrs) (s : State) : Host.Outcome State Fault Refusal :=
  .next (s.onDev (fun d => d.powered (fun d => d.linkReceiveFw p.val 2 h.toNat e)))

/-- PORT_RETRAIN (R284). After RETRY_LIM replays in a row a port retrains, possibly at a narrower width. -/
def execPortRetrain (p : PortNo) (s : State) : Host.Outcome State Fault Refusal :=
  .next (s.onDev (fun d => d.powered (fun d => d.portRetrain p.val)))

/-- PORT_HOLD_DOWN (R284). A port below MIN_WIDTH, or untrained after 200 ms, is held down and its replay buffer
discarded. -/
def execPortHoldDown (p : PortNo) (s : State) : Host.Outcome State Fault Refusal :=
  .next (s.onDev (fun d => d.powered (fun d => d.portHoldDown p.val)))

/-- PORT_SIGNAL_LOSS (R430). A port that loses its peer's signal counts one retrain and is held down. -/
def execPortSignalLoss (p : PortNo) (s : State) : Host.Outcome State Fault Refusal :=
  .next (s.onDev (fun d => d.powered (fun d => d.portLoss p.val)))

/-- PORT_SIGNAL_RETURN (R449). A held port that regains signal trains and qualifies again. -/
def execPortSignalReturn (p : PortNo) (s : State) : Host.Outcome State Fault Refusal :=
  .next (s.onDev (fun d => d.powered (fun d => d.portReturn p.val)))

end Sys2Proof.Machine
end

