-- ==== Sys2Proof/Machine/ExecFabTx.lean ====
section
/-! DEFINITION. Meanings of commands: sends of the fabric. -/

namespace Sys2Proof.Machine

/-- FAB_SQ_DOORBELL (R291). A doorbell write makes a waiting send ring re-read its descriptor. -/
def execFabSqDoorbell (n : JobNo) (s : State) : Host.Outcome State Fault Refusal :=
  .next (s.onDev (fun d => d.atReg (aFabSq n.val 0x10) (fun d => d.ringDoorbell n.val)))

/-- FAB_SQ_POLL_EXPIRE (R291). Every POLL × 64 cycles a waiting send ring re-reads its descriptor. -/
def execFabSqPollExpire (n : JobNo) (s : State) : Host.Outcome State Fault Refusal :=
  .next (s.onDev (fun d => d.running (fun d => d.ringPoll n.val)))

/-- FAB_SEND_PUT (R291). A PUT descriptor is cut into packets in order of offset. -/
def execFabSendPut (who : Option JobNo) (s : State) : Host.Outcome State Fault Refusal :=
  .next (s.onDev (fun d => d.running (fun d => d.sendPut (who.map Fin.val))))

/-- FAB_SEND_GET (R291). A GET descriptor sends a GET request. -/
def execFabSendGet (who : Option JobNo) (s : State) : Host.Outcome State Fault Refusal :=
  .next (s.onDev (fun d => d.running (fun d => d.sendGet (who.map Fin.val))))

/-- FAB_SEND_AMO (R291). An AMO descriptor sends an AMO request. -/
def execFabSendAmo (n : JobNo) (s : State) : Host.Outcome State Fault Refusal :=
  .next (s.onDev (fun d => d.running (fun d => d.ringSend n.val 2)))

/-- FAB_SEND_COL (R300). A COL descriptor sends the device's data as chunks of its collective. -/
def execFabSendCol (n : JobNo) (gate : Bool) (s : State) : Host.Outcome State Fault Refusal :=
  .next (s.onDev (fun d => d.running (fun d => d.sendCol n.val gate)))

/-- FAB_PACKET_SEND (R293). A packet leaves on a chosen port once a tag, the window and credit for all its flits are
available. -/
def execFabPacketSend (p : PortNo) (slot : Bool) (s : State) : Host.Outcome State Fault Refusal :=
  .next (s.onDev (fun d => d.running (fun d => d.packetSend p.val slot)))

/-- FAB_CQ_COAL_TIMEOUT (R296). COAL_TIME ticks after the oldest pending record, the completion ring sends its vector.
-/
def execFabCqCoalTimeout (n : JobNo) (s : State) : Host.Outcome State Fault Refusal :=
  .next (s.onDev (fun d => d.running (fun d => d.cqTimeout n.val)))

/-- FAB_TAG_TIMEOUT (R297). A request with no ACK or response for FAB_TAG_TMO ends its descriptor with LINK_DOWN. -/
def execFabTagTimeout (tag : BitVec 16) (s : State) : Host.Outcome State Fault Refusal :=
  .next (s.onDev (fun d => d.running (fun d => d.tagTimeout tag.toNat)))

/-- FAB_MSG_RELEASE (R298). A write of FAB_MSG_RELEASE frees a message slot that ended with LINK_DOWN. -/
def execFabMsgRelease (n : JobNo) (slot : Fin 16) (rank : BitVec 16) (s : State) : Host.Outcome State Fault Refusal :=
  .next (s.onDev (fun d => d.atReg (aFab 0x140) (fun d => d.msgRelease n.val slot.val rank.toNat)))

/-- FAB_SQ_DISABLE (R291). A write of EN = 0 stops the send ring, which becomes IDLE once its started descriptors
finish. -/
def execFabSqDisable (n : JobNo) (s : State) : Host.Outcome State Fault Refusal :=
  .next (s.onDev (fun d => d.atReg (aFabSq n.val 0x14) (fun d => d.ringDisable n.val)))

/-- FAB_SELF_WRITE (R462). A write of FAB_SELF is sent to every accepted peer. -/
def execFabSelfWrite (v : Word) (s : State) : Host.Outcome State Fault Refusal :=
  .next (s.onDev (fun d => d.atReg (aFab 0x100) (fun d => d.selfWrite v)))

/-- SLP_CAL_WINDOW (R303). At the due tick the master finishes its packet, sends CAL_START and retunes one lane. -/
def execSlpCalWindow (p : PortNo) (s : State) : Host.Outcome State Fault Refusal :=
  .next (s.onDev (fun d => d.powered (fun d => d.slpWindowFw p.val)))

/-- SLP_CAL_WINDOW_END (R303). The master ends the port window with CAL_END. -/
def execSlpCalWindowEnd (p : PortNo) (s : State) : Host.Outcome State Fault Refusal :=
  .next (s.onDev (fun d => d.powered (fun d => d.slpWindowEnd p.val)))

/-- SLP_CAL_DEFER (R304). A write of SLP_CAL_DEFER defers the port window by FAB_CAL_STEP, at most four times. -/
def execSlpCalDefer (p : PortNo) (s : State) : Host.Outcome State Fault Refusal :=
  .next (s.onDev (fun d => d.atReg (aSlp p.val 0x138) (fun d => d.slpDefer p.val)))

end Sys2Proof.Machine
end

