-- ==== Sys2Proof/Machine/ExecHostIf.lean ====
section
/-! DEFINITION. Meanings of commands: the host interface. -/

namespace Sys2Proof.Machine

/-- BAR2_READ (R365). A BAR2 read is served by its home slice, and returns poisoned data with EP set. -/
def execBar2Read (off : BitVec 41) (n : BitVec 13) (s : State) : Host.Outcome State Fault Refusal :=
  .next (s.onDev (fun d => d.bar2Read off.toNat n.toNat))

/-- BAR2_WRITE (R364). A BAR2 write is performed at its home slice, and a poisoned TLP poisons the blocks it touches.
-/
def execBar2Write (off : BitVec 41) (data : List Byte) (ep : Bool) (s : State) : Host.Outcome State Fault Refusal :=
  .next (s.onDev (fun d => d.bar2Write off.toNat data ep))

/-- BAR2_ATOMIC (R361). A PCIe AtomicOp on BAR2 is performed as IADD, SWAP or CAS at the home slice. -/
def execBar2Atomic (off : BitVec 41) (op : AtomicOp) (sz : AtomicSize) (a : BitVec 128) (cmp : BitVec 128) (s : State) : Host.Outcome State Fault Refusal :=
  .next (s.onDev (fun d => d.bar2Atomic off.toNat op sz a.toNat cmp.toNat))

/-- PCIE_CPL_TIMEOUT (R366). A host read whose completion does not arrive in time fails and is counted. -/
def execPcieCplTimeout (r : HostReader) (s : State) : Host.Outcome State Fault Refusal :=
  .next (s.onDev (fun d => d.clocked (fun d => d.cplTimeout r)))

end Sys2Proof.Machine
end

