-- ==== Sys2Proof/Machine/ExecMemory.lean ====
section
/-! DEFINITION. Meanings of commands: home slices and stacks. -/

namespace Sys2Proof.Machine

/-- SLICE_ACCESS (R236). The home slice serves one access to an HBM line, reading or writing through to HBM. -/
def execSliceAccess (die : Fin 2) (op : SliceOp) (ce : Fin 17) (ue : Bool) (s : State) : Host.Outcome State Fault Refusal :=
  .next (s.onDev (fun d => d.clocked (fun d => d.sliceAccess die.val op ce.val ue)))

/-- ATOMIC (R241). An atomic acts at its home slice and returns the old value, or is refused with poison. -/
def execAtomic (die : Fin 2) (code : BitVec 5) (pa : PhysAddr) (a : BitVec 64) (cmp : BitVec 64) (s : State) : Host.Outcome State Fault Refusal :=
  .next (s.onDev (fun d => d.clocked (fun d => d.atomicCmd die.val code.toNat pa.toNat a.toNat cmp.toNat)))

/-- POSTED_REDUCTION (R242). A write to the reduction window applies its op to each element at the home slice. -/
def execPostedReduction (die : Fin 2) (op : Fin 8) (pa : BitVec 41) (data : List Byte) (poison : Bool) (s : State) : Host.Outcome State Fault Refusal :=
  .next (s.onDev (fun d => d.clocked (fun d => d.reduction die.val op.val pa.toNat data poison)))

/-- HBM_SCRUB_STEP (R234). Every INTERVAL × 64 cycles the controller scrubs one line of each pseudo-channel. -/
def execHbmScrubStep (i : StackNo) (s : State) : Host.Outcome State Fault Refusal :=
  .next (s.onDev (fun d => d.clocked (fun d => d.hbmScrub i.val)))

/-- HMC_CAL_WINDOW (R245). At its due tick a stack enters its calibration window, forced after four deferrals. -/
def execHmcCalWindow (i : StackNo) (pass : Bool) (temp : BitVec 8) (odecc : BitVec 32) (s : State) : Host.Outcome State Fault Refusal :=
  .next (s.onDev (fun d => d.powered (fun d => d.hmcWindowFw i.val pass temp.toNat odecc.toNat)))

/-- HMC_CAL_WINDOW_END (R245). A stack's calibration window ends and the stack resumes service. -/
def execHmcCalWindowEnd (i : StackNo) (s : State) : Host.Outcome State Fault Refusal :=
  .next (s.onDev (fun d => d.powered (fun d => d.hmcWindowEnd i.val)))

/-- HMC_CAL_DEFER (R246). A write of HMC_CAL_DEFER defers the next window by HMC_CAL_STEP, at most four times. -/
def execHmcCalDefer (i : StackNo) (s : State) : Host.Outcome State Fault Refusal :=
  .next (s.onDev (fun d => d.atReg (aHmc i.val 0x128) (fun d => d.hmcDefer i.val)))

end Sys2Proof.Machine
end

