-- ==== Sys2Proof/Machine/ExecMesh.lean ====
section
/-! DEFINITION. Meanings of commands: the mesh and its reductions. -/

namespace Sys2Proof.Machine

/-- MESH_PACKET_DELIVER (R29). A mesh packet reaches a core; the router sinks it and counts it when the core is
fenced, in reset, outside any job or in another job. -/
def execMeshPacketDeliver (c : CoreNo) (job : Option JobNo) (op : MeshOp) (e : MeshErr) (s : State) : Host.Outcome State Fault Refusal :=
  .next (s.onDev (fun d => d.clocked (fun d => d.meshDeliver c.val (job.map Fin.val) op e)))

/-- REDUCE_PACKET_ARRIVE (R42). A reduce packet reaches a router; a stray packet is dropped and RED_STRAY is set, and
any other is buffered by ID and port. -/
def execReducePacketArrive (c : CoreNo) (i : Fin 16) (port : Fin 5) (src : CoreNo) (p : RedIn) (s : State) : Host.Outcome State Fault Refusal :=
  .next (s.onDev (fun d => d.clocked (fun d => d.redArrive c.val i.val port.val src.val p)))

/-- REDUCE_CHUNK_COMBINE (R39). Once every expected input of a chunk has arrived, the router adds them in fixed order
and forwards one packet. -/
def execReduceChunkCombine (c : CoreNo) (i : Fin 16) (s : State) : Host.Outcome State Fault Refusal :=
  .next (s.onDev (fun d => d.clocked (fun d => d.redCombine c.val i.val)))

end Sys2Proof.Machine
end

