-- ==== Sys2Proof/Machine/ExecOwl.lean ====
section
/-! DEFINITION. Meanings of commands: the Owl. -/

namespace Sys2Proof.Machine

/-- OWL_JOB_STOP (R346). A write of OWL_JOB_STOP stops the named job with the code written. -/
def execOwlJobStop (n : JobNo) (code : BitVec 8) (s : State) : Host.Outcome State Fault Refusal :=
  .next (s.onDev (fun d => d.atReg (aOwlJ 0x100) (fun d => d.owlStop n.val code.toNat)))

/-- OWL_FORCE_FENCE (R343). OWL_CTRL FORCE_FENCE applies the waiting core fences, core-resetting the renumbered cores
and stopping their jobs. -/
def execOwlForceFence (s : State) : Host.Outcome State Fault Refusal :=
  .next (s.onDev (fun d => d.atReg (aOwl 0x110) Dev.forceFence))

/-- OWL_CLR_SPARE (R348). OWL_CTRL CLR_SPARE clears SPARE_REQ. -/
def execOwlClrSpare (s : State) : Host.Outcome State Fault Refusal :=
  .next (s.onDev (fun d => d.atReg (aOwl 0x110) Dev.clrSpare))

/-- OWL_FORCE_SNAP (R348). OWL_CTRL FORCE_SNAP raises SNAP_REQ for one decision. -/
def execOwlForceSnap (s : State) : Host.Outcome State Fault Refusal :=
  .next (s.onDev (fun d => d.atReg (aOwl 0x110) Dev.forceSnap))

/-- OWL_INTERVAL (R347). At each 10 ms interval the Owl updates its input accumulators and score, and compares the
score with SNAP_LO and SNAP_HI. -/
def execOwlInterval (s : State) : Host.Outcome State Fault Refusal :=
  .next (s.onDev (fun d => d.powered Dev.owlInterval))

/-- OWL_LOG_RESTART (R349). A write of OWL_LOG_LO, OWL_LOG_HI or OWL_LOG_CFG restarts the event ring at index 0. -/
def execOwlLogRestart (i : Fin 3) (v : Word) (s : State) : Host.Outcome State Fault Refusal :=
  .next (s.onDev (fun d => d.logWrite i.val v))

end Sys2Proof.Machine
end

