-- ==== Sys2Proof/Machine/ExecPlane.lean ====
section
/-! DEFINITION. Meanings of commands: planes and the drain path. -/

namespace Sys2Proof.Machine

/-- MRUN (R147). A matrix-slot MRUN issues one operation into the plane issue buffer and sets the busy bit of its
slot. -/
def execMrun (c : CoreNo) (m : BitVec 124) (w : MRest) (s : State) : Host.Outcome State Fault Refusal :=
  .next (s.onDev (fun d => d.clocked (fun d => d.issueX c.val (w.word 0x1 m))))

/-- OP_EDGE_ENTER (R83). An issued operation enters its plane edge once R77, R80, R83 and R90 and its start delays
allow it, and the cells copy the entry state. -/
def execOpEdgeEnter (c : CoreNo) (p : PlaneNo) (s : State) : Host.Outcome State Fault Refusal :=
  .next (s.onDev (fun d => d.clocked (fun d => d.opEdgeEnter c.val p.val)))

/-- SCALE_BLOCK_TAKE (R126). When the first K-step of a group is due, the plane takes the next scale block from each
streamed source and checks its tag, kind and count. -/
def execScaleBlockTake (c : CoreNo) (p : PlaneNo) (s : State) : Host.Outcome State Fault Refusal :=
  .next (s.onDev (fun d => d.clocked (fun d => d.scaleBlockTake c.val p.val)))

/-- GROUP_INJECT (R78). The edge injects the K-steps of a group once the group's feed entries are present. -/
def execGroupInject (c : CoreNo) (p : PlaneNo) (s : State) : Host.Outcome State Fault Refusal :=
  .next (s.onDev (fun d => d.clocked (fun d => d.groupInject c.val p.val)))

/-- GROUP_BOUNDARY (R62). At a group boundary a cell checks the group sum and rescales it into the two-word
accumulator, updating state, flags and counter. -/
def execGroupBoundary (c : CoreNo) (p : PlaneNo) (cells : List HwErr) (lane : List HwErr) (s : State) : Host.Outcome State Fault Refusal :=
  .next (s.onDev (fun d => d.clocked (fun d => d.groupBoundary c.val p.val cells lane)))

/-- DECISION_OPEN (R340). A plane held at a failing group boundary opens its own decision once the core's open
decision ends. -/
def execDecisionOpen (c : CoreNo) (p : PlaneNo) (s : State) : Host.Outcome State Fault Refusal :=
  .next (s.onDev (fun d => d.clocked (fun d => d.decisionOpen c.val p.val)))

/-- SLOT_PARITY_ERROR (R85). A parity error in slot storage faults the operation in flight, or poisons the element. -/
def execSlotParityError (c : CoreNo) (p : SubPlane) (slot : Fin 8) (copy : Bool) (r : Fin 96) (j : Fin 64) (s : State) : Host.Outcome State Fault Refusal :=
  .next (s.onDev (fun d => d.clocked (fun d => d.slotParity c.val p.val slot.val copy r.val j.val)))

/-- OP_RETIRE (R83). An operation retires once every cell has added its last group, releasing the entry copy and
clearing BUSY when it is the slot's last operation. -/
def execOpRetire (c : CoreNo) (p : PlaneNo) (s : State) : Host.Outcome State Fault Refusal :=
  .next (s.onDev (fun d => d.clocked (fun d => d.opRetire c.val p.val)))

/-- PLANE_PAUSE (R88). A plane whose leave is revoked stops at the next group boundary and gates its clocks. -/
def execPlanePause (c : CoreNo) (p : PlaneNo) (s : State) : Host.Outcome State Fault Refusal :=
  .next (s.onDev (fun d => d.clocked (fun d => d.planePause c.val p.val)))

/-- PU_FENCE_APPLY (R114). A pending pack-unit fence takes effect at an epoch with no operation in flight: the band
becomes unavailable and non-empty slots become STALE. -/
def execPuFenceApply (c : CoreNo) (p : SubPlane) (s : State) : Host.Outcome State Fault Refusal :=
  .next (s.onDev (fun d => d.clocked (fun d => d.puFenceApply c.val p.val)))

/-- DRAIN (R153). A matrix-slot DRAIN checks the busy bits of its slots and enters the drain issue buffer. -/
def execDrain (c : CoreNo) (m : BitVec 124) (w : MRest) (s : State) : Host.Outcome State Fault Refusal :=
  .next (s.onDev (fun d => d.clocked (fun d => d.issueX c.val (w.word 0x2 m))))

/-- DRAIN_START (R155). An issued drain starts reading row 0 once the drain path is free and its slots have retired.
-/
def execDrainStart (c : CoreNo) (s : State) : Host.Outcome State Fault Refusal :=
  .next (s.onDev (fun d => d.clocked (fun d => d.drainStart c.val)))

/-- DRAIN_ROW (R141). The drain path reads one row, converts it and pushes its record, waiting for store queue space.
-/
def execDrainRow (c : CoreNo) (s : State) : Host.Outcome State Fault Refusal :=
  .next (s.onDev (fun d => d.clocked (fun d => d.drainRow c.val)))

end Sys2Proof.Machine
end

