-- ==== Sys2Proof/Machine/ExecPower.lean ====
section
/-! DEFINITION. Meanings of commands: power and clocks. -/

namespace Sys2Proof.Machine

/-- AON_TICK (R407). Each always-on tick the controller chooses a power state and enters a deeper one at once. -/
def execAonTick (s : State) : Host.Outcome State Fault Refusal :=
  .next (s.onDev (fun d => d.aonTick))

/-- AON_TICK_READ (R434). A read of AON_TICK_LO latches AON_TICK_HI for the next read. -/
def execAonTickRead (s : State) : Host.Outcome State Fault Refusal :=
  .next (s.onDev (fun d => d.atReg (aAon 0x100) Dev.tickRead))

/-- WAKE_EVENT (R408). A wake event records its cause and starts the exit to A0. -/
def execWakeEvent (cause : Fin 8) (s : State) : Host.Outcome State Fault Refusal :=
  .next (s.onDev (fun d => d.wake cause.val))

/-- AON_WAKE_TIMER (R408). AON_TICK reaching AON_WAKE_TIMER wakes the device. -/
def execAonWakeTimer (s : State) : Host.Outcome State Fault Refusal :=
  .next (s.onDev (fun d => d.wakeTimer))

/-- STATE_EXIT_DONE (R409). The exit from a power state completes after its retraining and clearing. -/
def execStateExitDone (bad : List StackNo) (lanes : List (BitVec 4)) (s : State) : Host.Outcome State Fault Refusal :=
  .next (s.onDev (fun d => d.exitDone (bad.map Fin.val) (lanes.map BitVec.toNat)))

/-- LEAVE_BUDGET_RECOMPUTE (R411). Every 10 µs the arbiter recomputes its budget and revokes the newest grants while
the grants exceed it. -/
def execLeaveBudgetRecompute (watts : Nat) (s : State) : Host.Outcome State Fault Refusal :=
  .next (s.onDev (fun d => d.leaveBudget watts))

/-- LEAVE_GRANT (R414). The arbiter grants the request at the head of its queue when it fits the budget. -/
def execLeaveGrant (s : State) : Host.Outcome State Fault Refusal :=
  .next (s.onDev (fun d => d.leaveGrant))

/-- LEAVE_TIMEOUT (R416). A request that waits PWR_LEAVE_TMO ticks is granted after revoking the newest grants, and
LEAVE_TMO is set. -/
def execLeaveTimeout (c : CoreNo) (p : PlaneNo) (s : State) : Host.Outcome State Fault Refusal :=
  .next (s.onDev (fun d => d.leaveTimeout c.val p.val))

/-- LEAVE_RETURN (R413). A plane returns its grant when its edge has been idle for HOLD cycles. -/
def execLeaveReturn (c : CoreNo) (p : PlaneNo) (s : State) : Host.Outcome State Fault Refusal :=
  .next (s.onDev (fun d => d.leaveReturn c.val p.val))

/-- CAP_CLOCK_STEP (R417). When the 1 ms power average would pass PWR_CAP, the controller steps the main clock down
and sets CAP_CLK. -/
def execCapClockStep (avg : Nat) (ack : Bool) (s : State) : Host.Outcome State Fault Refusal :=
  .next (s.onDev (fun d => d.capStep avg ack))

/-- PACE_STEP (R417). Every 100 µs at the lowest clock step, HBM and fabric pacing is lowered or lifted by 1/16. -/
def execPaceStep (avg : Nat) (s : State) : Host.Outcome State Fault Refusal :=
  .next (s.onDev (fun d => d.paceStep avg))

/-- TEMP_LIMIT (R417). A die sensor at TEMP_LIM steps the clock down and sets TEMP_CLK. -/
def execTempLimit (t : Nat) (ack : Bool) (s : State) : Host.Outcome State Fault Refusal :=
  .next (s.onDev (fun d => d.tempLimit t ack))

/-- THERM_CRIT (R417). A sensor at THERM_CRIT gates every fast clock and drives THERM_N low, until it falls 10 °C
below TEMP_LIM. -/
def execThermCrit (t : Nat) (s : State) : Host.Outcome State Fault Refusal :=
  .next (s.onDev (fun d => d.thermCrit t))

/-- VDD_DROOP (R418). A supply droop stretches one main-clock cycle and increments PWR_DROOP_CNT. -/
def execVddDroop (s : State) : Host.Outcome State Fault Refusal :=
  .next (s.onDev (fun d => d.droop))

/-- PLL_LOCK_LOSS (R404). A PLL losing lock causes a compute reset, a port retrain or a link retrain. -/
def execPllLockLoss (p : Pll) (s : State) : Host.Outcome State Fault Refusal :=
  .next (s.onDev (fun d => d.pllLoss p))

/-- RAIL_FAULT (R477). A rail out of range for more than 20 µs holds the device in cold reset until the rails recover.
-/
def execRailFault (rail : Rail) (us : Nat) (s : State) : Host.Outcome State Fault Refusal :=
  .next (s.onDev (fun d => d.railFault rail us))

end Sys2Proof.Machine
end

