-- ==== Sys2Proof/Machine/ExecReset.lean ====
section
/-! DEFINITION. Meanings of commands: resets. -/

namespace Sys2Proof.Machine

/-- COLD_RESET (R420). Power-on or PERST_N low resets everything, the always-on domain included. -/
def execColdReset (perst : Bool) (s : State) : Host.Outcome State Fault Refusal :=
  .next (s.onDev (fun d => d.coldCmd perst))

/-- WARM_RESET (R420). RST_CTRL WARM resets everything but the always-on domain and keeps HBM in self-refresh. -/
def execWarmReset (key : Word) (s : State) : Host.Outcome State Fault Refusal :=
  .next (s.onDev (fun d => d.atReg (aRst 0x100) (fun d => d.warmCtrl (Machine.fld key 15 0))))

/-- PCIE_HOT_RESET (R420). A PCIe hot reset or link-down reset starts a warm reset. -/
def execPcieHotReset (s : State) : Host.Outcome State Fault Refusal :=
  .next (s.onDev (fun d => d.powered Dev.pcieHotReset))

/-- COMPUTE_RESET (R421). RST_CTRL COMPUTE resets the cores, planes, queues, DMA and fabric sends after slice write-
back. -/
def execComputeReset (key : Word) (s : State) : Host.Outcome State Fault Refusal :=
  .next (s.onDev (fun d => d.atReg (aRst 0x100) (fun d => d.computeCtrl (Machine.fld key 15 0))))

/-- COMPUTE_RESET_DONE (R421). The blocks return from compute reset, COMPUTE_BUSY clears and RST_COMPUTE_CNT
increments. -/
def execComputeResetDone (s : State) : Host.Outcome State Fault Refusal :=
  .next (s.onDev (fun d => d.computeDone))

/-- RST_JOB (R422). A write of RST_JOB stops the job and resets its cores, fabric state, commands and gate. -/
def execRstJob (n : JobNo) (s : State) : Host.Outcome State Fault Refusal :=
  .next (s.onDev (fun d => d.atReg (aRst 0x108) (fun d => d.rstJob n.val)))

/-- JOB_RESET_DONE (R422). The job reset completes and JOB_BUSY clears. -/
def execJobResetDone (n : JobNo) (s : State) : Host.Outcome State Fault Refusal :=
  .next (s.onDev (fun d => d.jobResetDone n.val))

/-- RST_CORE (R420). A write of RST_CORE, or of SOFT_RST in CCTL, resets one core's streams, slots, queues and
configuration. -/
def execRstCore (c : CoreNo) (s : State) : Host.Outcome State Fault Refusal :=
  .next (s.onDev (fun d => d.atReg (aRst 0x104) (fun d => d.rstCore c.val)))

/-- CORE_RESET_DONE (R420). The core reset completes and CORE_BUSY clears. -/
def execCoreResetDone (c : CoreNo) (s : State) : Host.Outcome State Fault Refusal :=
  .next (s.onDev (fun d => d.coreResetDone c.val))

end Sys2Proof.Machine
end

