-- ==== Sys2Proof/Machine/ExecScalar.lean ====
section
/-! DEFINITION. Meanings of commands: scalar and sync slots, memory no-operations. -/

namespace Sys2Proof.Machine

/-- CNOP (R164). The scalar no-operation does nothing. -/
def execCnop (c : CoreNo) (x : BitVec 36) (w : SRest) (s : State) : Host.Outcome State Fault Refusal :=
  .next (s.onDev (fun d => d.clocked (fun d => w.issue 0x0 x c.val d)))

/-- CSET (R164). Sets a counter to an immediate. -/
def execCset (c : CoreNo) (x : BitVec 36) (w : SRest) (s : State) : Host.Outcome State Fault Refusal :=
  .next (s.onDev (fun d => d.clocked (fun d => w.issue 0x1 x c.val d)))

/-- CADD (R164). Adds a signed immediate to a counter. -/
def execCadd (c : CoreNo) (x : BitVec 36) (w : SRest) (s : State) : Host.Outcome State Fault Refusal :=
  .next (s.onDev (fun d => d.clocked (fun d => w.issue 0x2 x c.val d)))

/-- KCMP (R164). Sets a comparator from a counter compared with an immediate. -/
def execKcmp (c : CoreNo) (x : BitVec 36) (w : SRest) (s : State) : Host.Outcome State Fault Refusal :=
  .next (s.onDev (fun d => d.clocked (fun d => w.issue 0x3 x c.val d)))

/-- KCMPC (R164). Sets a comparator from two counters compared. -/
def execKcmpc (c : CoreNo) (x : BitVec 36) (w : SRest) (s : State) : Host.Outcome State Fault Refusal :=
  .next (s.onDev (fun d => d.clocked (fun d => w.issue 0x4 x c.val d)))

/-- BRK (R165). Branches when the comparator equals the polarity bit. -/
def execBrk (c : CoreNo) (x : BitVec 36) (w : SRest) (s : State) : Host.Outcome State Fault Refusal :=
  .next (s.onDev (fun d => d.clocked (fun d => w.issue 0x5 x c.val d)))

/-- JMP (R165). Branches unconditionally. -/
def execJmp (c : CoreNo) (x : BitVec 36) (w : SRest) (s : State) : Host.Outcome State Fault Refusal :=
  .next (s.onDev (fun d => d.clocked (fun d => w.issue 0x6 x c.val d)))

/-- LOOP (R165). Decrements a counter and branches while it is not zero. -/
def execLoop (c : CoreNo) (x : BitVec 36) (w : SRest) (s : State) : Host.Outcome State Fault Refusal :=
  .next (s.onDev (fun d => d.clocked (fun d => w.issue 0x7 x c.val d)))

/-- HALT (R166). Stops fetching after the word. -/
def execHalt (c : CoreNo) (x : BitVec 36) (w : SRest) (s : State) : Host.Outcome State Fault Refusal :=
  .next (s.onDev (fun d => d.clocked (fun d => w.issue 0x8 x c.val d)))

/-- STREAM_HALTED (R166). A stream after HALT becomes HALTED once its units are idle. -/
def execStreamHalted (c : CoreNo) (exec : Bool) (s : State) : Host.Outcome State Fault Refusal :=
  .next (s.onDev (fun d => d.clocked (fun d => d.streamHalted c.val exec)))

/-- YNOP (R167). The sync no-operation does nothing. -/
def execYnop (c : CoreNo) (y : BitVec 20) (w : YRest) (s : State) : Host.Outcome State Fault Refusal :=
  .next (s.onDev (fun d => d.clocked (fun d => w.issue 0x0 y c.val d)))

/-- SETF (R167). Sets the flags of its mask as the word issues. -/
def execSetf (c : CoreNo) (y : BitVec 20) (w : YRest) (s : State) : Host.Outcome State Fault Refusal :=
  .next (s.onDev (fun d => d.clocked (fun d => w.issue 0x1 y c.val d)))

/-- WAITF (R182). Holds the word until the flags of its mask are set, and clears them with CONSUME. -/
def execWaitf (c : CoreNo) (y : BitVec 20) (w : YRest) (s : State) : Host.Outcome State Fault Refusal :=
  .next (s.onDev (fun d => d.clocked (fun d => w.issue 0x2 y c.val d)))

/-- EPOCH (R427). The stream's epoch marker for configuration changes. -/
def execEpoch (c : CoreNo) (y : BitVec 20) (w : YRest) (s : State) : Host.Outcome State Fault Refusal :=
  .next (s.onDev (fun d => d.clocked (fun d => w.issue 0x3 y c.val d)))

/-- LNOP (R144). The load-slot no-operation does nothing. -/
def execLnop (c : CoreNo) (l : BitVec 60) (w : LRest) (s : State) : Host.Outcome State Fault Refusal :=
  .next (s.onDev (fun d => d.clocked (fun d => d.issueA c.val (w.loadWord 0x0 l))))

/-- SNOP (R144). The store-slot no-operation does nothing. -/
def execSnop (c : CoreNo) (t : BitVec 60) (w : LRest) (s : State) : Host.Outcome State Fault Refusal :=
  .next (s.onDev (fun d => d.clocked (fun d => d.issueA c.val (w.storeWord 0x0 t))))

end Sys2Proof.Machine
end

