-- ==== Sys2Proof/Machine/ExecSquirrel.lean ====
section
/-! DEFINITION. Meanings of commands: Squirrel. -/

namespace Sys2Proof.Machine

/-- SQR_FIRST_TOUCH_DONE (R353). The first-touch copy completes, the page becomes TOUCHED and the held write is
released. -/
def execSqrFirstTouchDone (pg : BitVec 25) (s : State) : Host.Outcome State Fault Refusal :=
  .next (s.onDev (fun d => d.clocked (fun d => d.firstTouch pg.toNat)))

/-- SQR_SWEEP_SEND (R353). The sweep sends a page that has SEND set, as a MIRROR PUT or a PARITY XOR delta, within the
copy budget. -/
def execSqrSweepSend (pg : BitVec 25) (s : State) : Host.Outcome State Fault Refusal :=
  .next (s.onDev (fun d => d.clocked (fun d => d.sweep pg.toNat)))

/-- SQR_BUDGET_QUANTUM (R354). Each 1 µs quantum renews the copy budget shared by the sweep and the first-touch
copies. -/
def execSqrBudgetQuantum (s : State) : Host.Outcome State Fault Refusal :=
  .next (s.onDev (fun d => d.clocked Dev.sqrQuantum))

/-- SQR_MERGE_DONE (R355). The holders' merge of D into A completes, the job becomes IDLE and LOST clears. -/
def execSqrMergeDone (n : JobNo) (s : State) : Host.Outcome State Fault Refusal :=
  .next (s.onDev (fun d => d.clocked (fun d => d.mergeDone n.val)))

/-- SQR_START (R352). SQR_CTRL START requests a snapshot that begins at the next ARM. -/
def execSqrStart (n : JobNo) (s : State) : Host.Outcome State Fault Refusal :=
  .next (s.onDev (fun d => d.atReg (aSqr 0x120) (fun d => d.sqrStart n.val)))

/-- SQR_ROLLBACK (R357). SQR_CTRL ROLLBACK restores every registered page to version T. -/
def execSqrRollback (n : JobNo) (s : State) : Host.Outcome State Fault Refusal :=
  .next (s.onDev (fun d => d.atReg (aSqr 0x120) (fun d => d.sqrRollback n.val)))

/-- SQR_PREPARE (R358). Rebuild phase 1 sets D to A of version T at the holders. -/
def execSqrPrepare (n : JobNo) (s : State) : Host.Outcome State Fault Refusal :=
  .next (s.onDev (fun d => d.atReg (aSqr 0x120) (fun d => d.prepare n.val)))

/-- SQR_PUSH (R358). Rebuild phase 2 XORs the survivors' stripe pages into the holders' D. -/
def execSqrPush (n : JobNo) (s : State) : Host.Outcome State Fault Refusal :=
  .next (s.onDev (fun d => d.atReg (aSqr 0x120) (fun d => d.push n.val)))

/-- SQR_SEND (R358). Rebuild phase 3 sends the rebuilt pages and the mirrors to the spare. -/
def execSqrSend (n : JobNo) (s : State) : Host.Outcome State Fault Refusal :=
  .next (s.onDev (fun d => d.atReg (aSqr 0x120) (fun d => d.sqrSend n.val)))

/-- SQR_REPARITY (R358). Rebuild phase 4 rebuilds the spare's parity bank A. -/
def execSqrReparity (n : JobNo) (s : State) : Host.Outcome State Fault Refusal :=
  .next (s.onDev (fun d => d.atReg (aSqr 0x120) (fun d => d.reparity n.val)))

/-- SQR_PHASE_DONE (R358). A rollback or rebuild phase completes and REBUILD_DONE is set. -/
def execSqrPhaseDone (n : JobNo) (s : State) : Host.Outcome State Fault Refusal :=
  .next (s.onDev (fun d => d.clocked (fun d => d.phaseDone n.val)))

end Sys2Proof.Machine
end

