-- ==== Sys2Proof/Machine/ExecStep.lean ====
section
/-! DEFINITION. Meanings of commands: step gates. -/

namespace Sys2Proof.Machine

/-- STEP_ARM (R324). A write of ARM to GLB_STEP_n_CTRL zeroes the gate line, starts the directory assignment and puts
the gate into COLLECTING, or is refused. -/
def execStepArm (n : JobNo) (s : State) : Host.Outcome State Fault Refusal :=
  .next (s.onDev (fun d => d.atReg (aStepJ n.val 0) (fun d => d.stepArm n.val)))

/-- STASH_ASSIGN_DONE (R316). The stash directory assignment completes and ARMING clears. -/
def execStashAssignDone (n : JobNo) (s : State) : Host.Outcome State Fault Refusal :=
  .next (s.onDev (fun d => d.clocked (fun d => d.stashAssign n.val)))

/-- GATE_TIMEOUT (R324). GLB_STEP_GATE_TMO ticks after READY_T in REDUCING, the gate becomes FAILED with code 0x0C. -/
def execGateTimeout (n : JobNo) (s : State) : Host.Outcome State Fault Refusal :=
  .next (s.onDev (fun d => d.clocked (fun d => d.gateTimeout n.val)))

end Sys2Proof.Machine
end

