-- ==== Sys2Proof/Machine/ExecStream.lean ====
section
/-! DEFINITION. Meanings of commands: streams, contexts and core memory. -/

namespace Sys2Proof.Machine

/-- STRM_FLAG_SET (R180). A write of STRM_FLAG_SET sets the flags of the core. -/
def execStrmFlagSet (c : CoreNo) (m : BitVec 16) (s : State) : Host.Outcome State Fault Refusal :=
  .next (s.onDev (fun d => d.atReg (aStrm c.val 0x134) (fun d => d.setFlags c.val m.toNat)))

/-- STRM_FLAG_CLR (R180). A write of STRM_FLAG_CLR clears the flags of the core. -/
def execStrmFlagClr (c : CoreNo) (m : BitVec 16) (s : State) : Host.Outcome State Fault Refusal :=
  .next (s.onDev (fun d => d.atReg (aStrm c.val 0x138) (fun d => d.clrFlags c.val m.toNat)))

/-- STRM_START (R189). A write of STRM_START starts an IDLE or HALTED stream from word 0 of its window. -/
def execStrmStart (c : CoreNo) (x : Bool) (a : Bool) (s : State) : Host.Outcome State Fault Refusal :=
  .next (s.onDev (fun d => d.atReg (aStrm c.val 0x100) (fun d => d.strmStart c.val x a)))

/-- BADGER_REPORT (R188). When the Badger count reaches DEADLOCK_WIN it writes the report and the fault record and
puts both streams in DEADLOCKED. -/
def execBadgerReport (c : CoreNo) (s : State) : Host.Outcome State Fault Refusal :=
  .next (s.onDev (fun d => d.clocked (fun d => d.badgerReport c.val)))

/-- CTX_SAVE (R191). CCTL_CTX_CMD SAVE stops the core at group boundaries and writes its context image. -/
def execCtxSave (c : CoreNo) (cmem : Bool) (s : State) : Host.Outcome State Fault Refusal :=
  .next (s.onDev (fun d => d.atReg (aCctl c.val 0x110) (fun d => d.ctxSave c.val cmem)))

/-- CTX_SAVE_DONE (R193). The context image is complete; the streams become IDLE and the context is cleared. -/
def execCtxSaveDone (c : CoreNo) (s : State) : Host.Outcome State Fault Refusal :=
  .next (s.onDev (fun d => d.clocked (fun d => d.ctxSaveDone c.val)))

/-- CTX_RESTORE (R194). CCTL_CTX_CMD RESTORE checks the image header and loads the image, or refuses it. -/
def execCtxRestore (c : CoreNo) (cmem : Bool) (s : State) : Host.Outcome State Fault Refusal :=
  .next (s.onDev (fun d => d.atReg (aCctl c.val 0x110) (fun d => d.ctxRestore c.val cmem)))

/-- CTX_RESTORE_DONE (R195). The restore completes with rebased addresses, and the streams take their recorded states.
-/
def execCtxRestoreDone (c : CoreNo) (s : State) : Host.Outcome State Fault Refusal :=
  .next (s.onDev (fun d => d.clocked (fun d => d.ctxRestoreDone c.val)))

/-- CMEM_SCRUB_STEP (R205). Every INTERVAL cycles the scrubber reads one block and writes back a corrected one. -/
def execCmemScrubStep (c : CoreNo) (s : State) : Host.Outcome State Fault Refusal :=
  .next (s.onDev (fun d => d.clocked (fun d => d.cmemScrub c.val)))

/-- CMEM_CLEAR_DONE (R206). Clearing of a core's memory to zero with valid check symbols completes. -/
def execCmemClearDone (c : CoreNo) (s : State) : Host.Outcome State Fault Refusal :=
  .next (s.onDev (fun d => d.clocked (fun d => d.cmemClearDone c.val)))

/-- CMEM_QUANTUM (R208). Each 64-cycle quantum restores every traffic class's share of access slots. -/
def execCmemQuantum (c : CoreNo) (s : State) : Host.Outcome State Fault Refusal :=
  .next (s.onDev (fun d => d.clocked (fun d => d.cmemQuantum c.val)))

end Sys2Proof.Machine
end

