-- ==== Sys2Proof/Machine/ExecTrust.lean ====
section
/-! DEFINITION. Meanings of commands: the trust controller. -/

namespace Sys2Proof.Machine

/-- QUOTE (R461). TRU_CMD QUOTE signs the measurements and the nonce into a quote in the buffer. -/
def execQuote (s : State) : Host.Outcome State Fault Refusal :=
  .next (s.onDev (fun d => d.atReg (aTru 0x11C) (fun d => d.quote)))

/-- EXTEND (R460). TRU_CMD EXTEND extends a measurement register 8–15 with 32 bytes from the buffer. -/
def execExtend (m : Fin 16) (s : State) : Host.Outcome State Fault Refusal :=
  .next (s.onDev (fun d => d.atReg (aTru 0x11C) (fun d => d.extendCmd m.val)))

/-- DEBUG_CHALLENGE (R465). TRU_CMD DEBUG_CHALLENGE writes a fresh nonce to the buffer. -/
def execDebugChallenge (s : State) : Host.Outcome State Fault Refusal :=
  .next (s.onDev (fun d => d.atReg (aTru 0x11C) (fun d => d.debugChallenge)))

/-- DEBUG_UNLOCK (R466). TRU_CMD DEBUG_UNLOCK checks a token and opens its debug scope. -/
def execDebugUnlock (s : State) : Host.Outcome State Fault Refusal :=
  .next (s.onDev (fun d => d.atReg (aTru 0x11C) (fun d => d.debugUnlock)))

/-- DEBUG_LOCK (R466). TRU_CMD DEBUG_LOCK closes the open debug scope. -/
def execDebugLock (s : State) : Host.Outcome State Fault Refusal :=
  .next (s.onDev (fun d => d.atReg (aTru 0x11C) (fun d => d.debugLock)))

/-- DEBUG_EXPIRE (R466). After DURATION ticks the open debug scope closes. -/
def execDebugExpire (s : State) : Host.Outcome State Fault Refusal :=
  .next (s.onDev (fun d => d.powered Dev.debugExpire))

/-- SET_OWNER (R456). TRU_CMD SET_OWNER writes a new owner key slot and revokes the previous one. -/
def execSetOwner (s : State) : Host.Outcome State Fault Refusal :=
  .next (s.onDev (fun d => d.atReg (aTru 0x11C) (fun d => d.setOwner)))

/-- ADVANCE_SVN (R442). TRU_CMD ADVANCE_SVN blows MIN_SVN fuse bits up to its argument. -/
def execAdvanceSvn (v : BitVec 16) (s : State) : Host.Outcome State Fault Refusal :=
  .next (s.onDev (fun d => d.atReg (aTru 0x11C) (fun d => d.advanceSvn v.toNat)))

end Sys2Proof.Machine
end

