-- ==== Sys2Proof/Machine/ExecVector.lean ====
section
/-! DEFINITION. Meanings of commands: the matrix no-operation and the vector slot. -/

namespace Sys2Proof.Machine

/-- MNOP (R146). The matrix-slot no-operation does nothing. -/
def execMnop (c : CoreNo) (m : BitVec 124) (w : MRest) (s : State) : Host.Outcome State Fault Refusal :=
  .next (s.onDev (fun d => d.clocked (fun d => d.issueX c.val (w.word 0x0 m))))

/-- VNOP (R157). The vector-slot no-operation does nothing. -/
def execVnop (c : CoreNo) (v : BitVec 58) (w : VRest) (s : State) : Host.Outcome State Fault Refusal :=
  .next (s.onDev (fun d => d.clocked (fun d => d.issueX c.val (w.word 0x00 v))))

/-- VADD (R157). Adds two vector registers lane by lane. -/
def execVadd (c : CoreNo) (v : BitVec 58) (w : VRest) (s : State) : Host.Outcome State Fault Refusal :=
  .next (s.onDev (fun d => d.clocked (fun d => d.issueX c.val (w.word 0x01 v))))

/-- VSUB (R157). Subtracts two vector registers lane by lane. -/
def execVsub (c : CoreNo) (v : BitVec 58) (w : VRest) (s : State) : Host.Outcome State Fault Refusal :=
  .next (s.onDev (fun d => d.clocked (fun d => d.issueX c.val (w.word 0x02 v))))

/-- VMUL (R157). Multiplies two vector registers lane by lane. -/
def execVmul (c : CoreNo) (v : BitVec 58) (w : VRest) (s : State) : Host.Outcome State Fault Refusal :=
  .next (s.onDev (fun d => d.clocked (fun d => d.issueX c.val (w.word 0x03 v))))

/-- VFMA (R157). Fused multiply-add per lane with one rounding. -/
def execVfma (c : CoreNo) (v : BitVec 58) (w : VRest) (s : State) : Host.Outcome State Fault Refusal :=
  .next (s.onDev (fun d => d.clocked (fun d => d.issueX c.val (w.word 0x04 v))))

/-- VMIN (R157). Lane minimum, with -0 below +0. -/
def execVmin (c : CoreNo) (v : BitVec 58) (w : VRest) (s : State) : Host.Outcome State Fault Refusal :=
  .next (s.onDev (fun d => d.clocked (fun d => d.issueX c.val (w.word 0x05 v))))

/-- VMAX (R157). Lane maximum, with the same rules as VMIN. -/
def execVmax (c : CoreNo) (v : BitVec 58) (w : VRest) (s : State) : Host.Outcome State Fault Refusal :=
  .next (s.onDev (fun d => d.clocked (fun d => d.issueX c.val (w.word 0x06 v))))

/-- VABS (R157). Clears the sign bit of each lane. -/
def execVabs (c : CoreNo) (v : BitVec 58) (w : VRest) (s : State) : Host.Outcome State Fault Refusal :=
  .next (s.onDev (fun d => d.clocked (fun d => d.issueX c.val (w.word 0x07 v))))

/-- VNEG (R157). Inverts the sign bit of each lane. -/
def execVneg (c : CoreNo) (v : BitVec 58) (w : VRest) (s : State) : Host.Outcome State Fault Refusal :=
  .next (s.onDev (fun d => d.clocked (fun d => d.issueX c.val (w.word 0x08 v))))

/-- VDIV (R157). Divides lane by lane with one rounding on the shared divide unit. -/
def execVdiv (c : CoreNo) (v : BitVec 58) (w : VRest) (s : State) : Host.Outcome State Fault Refusal :=
  .next (s.onDev (fun d => d.clocked (fun d => d.issueX c.val (w.word 0x09 v))))

/-- VSQRT (R157). Square root per lane with one rounding. -/
def execVsqrt (c : CoreNo) (v : BitVec 58) (w : VRest) (s : State) : Host.Outcome State Fault Refusal :=
  .next (s.onDev (fun d => d.clocked (fun d => d.issueX c.val (w.word 0x0A v))))

/-- VRSQ (R157). Reciprocal square root per lane with one rounding. -/
def execVrsq (c : CoreNo) (v : BitVec 58) (w : VRest) (s : State) : Host.Outcome State Fault Refusal :=
  .next (s.onDev (fun d => d.clocked (fun d => d.issueX c.val (w.word 0x0B v))))

/-- VCMP (R157). Compares lanes and writes all ones or zero. -/
def execVcmp (c : CoreNo) (v : BitVec 58) (w : VRest) (s : State) : Host.Outcome State Fault Refusal :=
  .next (s.onDev (fun d => d.clocked (fun d => d.issueX c.val (w.word 0x0C v))))

/-- VSEL (R157). Selects a or b per lane by c. -/
def execVsel (c : CoreNo) (v : BitVec 58) (w : VRest) (s : State) : Host.Outcome State Fault Refusal :=
  .next (s.onDev (fun d => d.clocked (fun d => d.issueX c.val (w.word 0x0D v))))

/-- VAND (R157). Bitwise AND per lane. -/
def execVand (c : CoreNo) (v : BitVec 58) (w : VRest) (s : State) : Host.Outcome State Fault Refusal :=
  .next (s.onDev (fun d => d.clocked (fun d => d.issueX c.val (w.word 0x10 v))))

/-- VOR (R157). Bitwise OR per lane. -/
def execVor (c : CoreNo) (v : BitVec 58) (w : VRest) (s : State) : Host.Outcome State Fault Refusal :=
  .next (s.onDev (fun d => d.clocked (fun d => d.issueX c.val (w.word 0x11 v))))

/-- VXOR (R157). Bitwise XOR per lane. -/
def execVxor (c : CoreNo) (v : BitVec 58) (w : VRest) (s : State) : Host.Outcome State Fault Refusal :=
  .next (s.onDev (fun d => d.clocked (fun d => d.issueX c.val (w.word 0x12 v))))

/-- VPOPC (R157). Counts the 1 bits of each lane. -/
def execVpopc (c : CoreNo) (v : BitVec 58) (w : VRest) (s : State) : Host.Outcome State Fault Refusal :=
  .next (s.onDev (fun d => d.clocked (fun d => d.issueX c.val (w.word 0x13 v))))

/-- VCVT (R158). Converts each lane between formats. -/
def execVcvt (c : CoreNo) (v : BitVec 58) (w : VRest) (s : State) : Host.Outcome State Fault Refusal :=
  .next (s.onDev (fun d => d.clocked (fun d => d.issueX c.val (w.word 0x14 v))))

/-- VRED (R159). Reduces across lanes in a fixed tree into lane 0. -/
def execVred (c : CoreNo) (v : BitVec 58) (w : VRest) (s : State) : Host.Outcome State Fault Refusal :=
  .next (s.onDev (fun d => d.clocked (fun d => d.issueX c.val (w.word 0x18 v))))

/-- VMOVI (R157). Writes an immediate into every lane. -/
def execVmovi (c : CoreNo) (v : BitVec 58) (w : VRest) (s : State) : Host.Outcome State Fault Refusal :=
  .next (s.onDev (fun d => d.clocked (fun d => d.issueX c.val (w.word 0x20 v))))

/-- VMOV (R157). Copies a vector register. -/
def execVmov (c : CoreNo) (v : BitVec 58) (w : VRest) (s : State) : Host.Outcome State Fault Refusal :=
  .next (s.onDev (fun d => d.clocked (fun d => d.issueX c.val (w.word 0x21 v))))

/-- VLDQ (R162). Takes 256 bytes from a load queue into a vector register. -/
def execVldq (c : CoreNo) (v : BitVec 58) (w : VRest) (s : State) : Host.Outcome State Fault Refusal :=
  .next (s.onDev (fun d => d.clocked (fun d => d.issueX c.val (w.word 0x28 v))))

/-- VSTQ (R162). Reserves 256 bytes of a store queue and pushes a vector register into them. -/
def execVstq (c : CoreNo) (v : BitVec 58) (w : VRest) (s : State) : Host.Outcome State Fault Refusal :=
  .next (s.onDev (fun d => d.clocked (fun d => d.issueX c.val (w.word 0x29 v))))

/-- VRDS (R162). Reads one logical row of a slot's head or tail words into a vector register. -/
def execVrds (c : CoreNo) (v : BitVec 58) (w : VRest) (s : State) : Host.Outcome State Fault Refusal :=
  .next (s.onDev (fun d => d.clocked (fun d => d.issueX c.val (w.word 0x2A v))))

/-- VREG_WRITEBACK (R160). A vector result lands in its register at issue plus latency, and an older write that lands
later is discarded. -/
def execVregWriteback (c : CoreNo) (s : State) : Host.Outcome State Fault Refusal :=
  .next (s.onDev (fun d => d.clocked (fun d => d.onCore c.val (fun k => k.vland d.cycle))))

end Sys2Proof.Machine
end

