-- ==== Sys2Proof/Machine/Dispatch.lean ====
section
/-! DEFINITION. What each command does: one call of its meaning. -/

namespace Sys2Proof.Machine

def exec (i : Instr) (s : State) : Host.Outcome State Fault Refusal :=
  match i with
  | .regWrite a n v ep => Sys2Proof.Machine.execRegWrite a n v ep s
  | .cfgCommit page e => Sys2Proof.Machine.execCfgCommit page e s
  | .cfgCommitDisarm page => Sys2Proof.Machine.execCfgCommitDisarm page s
  | .coreEpochApply c e => Sys2Proof.Machine.execCoreEpochApply c e s
  | .rstEpochReq all job e => Sys2Proof.Machine.execRstEpochReq all job e s
  | .deviceEpochApply => Sys2Proof.Machine.execDeviceEpochApply s
  | .coreFenceApply => Sys2Proof.Machine.execCoreFenceApply s
  | .coreFenceRequest c => Sys2Proof.Machine.execCoreFenceRequest c s
  | .meshPacketDeliver c job op e => Sys2Proof.Machine.execMeshPacketDeliver c job op e s
  | .reducePacketArrive c k port src p => Sys2Proof.Machine.execReducePacketArrive c k port src p s
  | .reduceChunkCombine c k => Sys2Proof.Machine.execReduceChunkCombine c k s
  | .mrun c m w => Sys2Proof.Machine.execMrun c m w s
  | .opEdgeEnter c p => Sys2Proof.Machine.execOpEdgeEnter c p s
  | .scaleBlockTake c p => Sys2Proof.Machine.execScaleBlockTake c p s
  | .groupInject c p => Sys2Proof.Machine.execGroupInject c p s
  | .groupBoundary c p cells lane => Sys2Proof.Machine.execGroupBoundary c p cells lane s
  | .decisionOpen c p => Sys2Proof.Machine.execDecisionOpen c p s
  | .slotParityError c p slot copy r j => Sys2Proof.Machine.execSlotParityError c p slot copy r j s
  | .opRetire c p => Sys2Proof.Machine.execOpRetire c p s
  | .planePause c p => Sys2Proof.Machine.execPlanePause c p s
  | .puFenceApply c p => Sys2Proof.Machine.execPuFenceApply c p s
  | .drain c m w => Sys2Proof.Machine.execDrain c m w s
  | .drainStart c => Sys2Proof.Machine.execDrainStart c s
  | .drainRow c => Sys2Proof.Machine.execDrainRow c s
  | .tload c l w => Sys2Proof.Machine.execTload c l w s
  | .tableLoadDone c => Sys2Proof.Machine.execTableLoadDone c s
  | .csld c l w => Sys2Proof.Machine.execCsld c l w s
  | .bankWriteApply c plane bank => Sys2Proof.Machine.execBankWriteApply c plane bank s
  | .agset c inStore x w => Sys2Proof.Machine.execAgset c inStore x w s
  | .ldq c l w => Sys2Proof.Machine.execLdq c l w s
  | .stq c t w => Sys2Proof.Machine.execStq c t w s
  | .loadEntryPush c q => Sys2Proof.Machine.execLoadEntryPush c q s
  | .storeBlockWrite c sq => Sys2Proof.Machine.execStoreBlockWrite c sq s
  | .storeWriteTimeout c => Sys2Proof.Machine.execStoreWriteTimeout c s
  | .mnop c m w => Sys2Proof.Machine.execMnop c m w s
  | .vnop c v w => Sys2Proof.Machine.execVnop c v w s
  | .vadd c v w => Sys2Proof.Machine.execVadd c v w s
  | .vsub c v w => Sys2Proof.Machine.execVsub c v w s
  | .vmul c v w => Sys2Proof.Machine.execVmul c v w s
  | .vfma c v w => Sys2Proof.Machine.execVfma c v w s
  | .vmin c v w => Sys2Proof.Machine.execVmin c v w s
  | .vmax c v w => Sys2Proof.Machine.execVmax c v w s
  | .vabs c v w => Sys2Proof.Machine.execVabs c v w s
  | .vneg c v w => Sys2Proof.Machine.execVneg c v w s
  | .vdiv c v w => Sys2Proof.Machine.execVdiv c v w s
  | .vsqrt c v w => Sys2Proof.Machine.execVsqrt c v w s
  | .vrsq c v w => Sys2Proof.Machine.execVrsq c v w s
  | .vcmp c v w => Sys2Proof.Machine.execVcmp c v w s
  | .vsel c v w => Sys2Proof.Machine.execVsel c v w s
  | .vand c v w => Sys2Proof.Machine.execVand c v w s
  | .vor c v w => Sys2Proof.Machine.execVor c v w s
  | .vxor c v w => Sys2Proof.Machine.execVxor c v w s
  | .vpopc c v w => Sys2Proof.Machine.execVpopc c v w s
  | .vcvt c v w => Sys2Proof.Machine.execVcvt c v w s
  | .vred c v w => Sys2Proof.Machine.execVred c v w s
  | .vmovi c v w => Sys2Proof.Machine.execVmovi c v w s
  | .vmov c v w => Sys2Proof.Machine.execVmov c v w s
  | .vldq c v w => Sys2Proof.Machine.execVldq c v w s
  | .vstq c v w => Sys2Proof.Machine.execVstq c v w s
  | .vrds c v w => Sys2Proof.Machine.execVrds c v w s
  | .vregWriteback c => Sys2Proof.Machine.execVregWriteback c s
  | .cnop c x w => Sys2Proof.Machine.execCnop c x w s
  | .cset c x w => Sys2Proof.Machine.execCset c x w s
  | .cadd c x w => Sys2Proof.Machine.execCadd c x w s
  | .kcmp c x w => Sys2Proof.Machine.execKcmp c x w s
  | .kcmpc c x w => Sys2Proof.Machine.execKcmpc c x w s
  | .brk c x w => Sys2Proof.Machine.execBrk c x w s
  | .jmp c x w => Sys2Proof.Machine.execJmp c x w s
  | .loop c x w => Sys2Proof.Machine.execLoop c x w s
  | .halt c x w => Sys2Proof.Machine.execHalt c x w s
  | .streamHalted c exec => Sys2Proof.Machine.execStreamHalted c exec s
  | .ynop c y w => Sys2Proof.Machine.execYnop c y w s
  | .setf c y w => Sys2Proof.Machine.execSetf c y w s
  | .waitf c y w => Sys2Proof.Machine.execWaitf c y w s
  | .epoch c y w => Sys2Proof.Machine.execEpoch c y w s
  | .lnop c l w => Sys2Proof.Machine.execLnop c l w s
  | .snop c t w => Sys2Proof.Machine.execSnop c t w s
  | .strmFlagSet c m => Sys2Proof.Machine.execStrmFlagSet c m s
  | .strmFlagClr c m => Sys2Proof.Machine.execStrmFlagClr c m s
  | .strmStart c x a => Sys2Proof.Machine.execStrmStart c x a s
  | .badgerReport c => Sys2Proof.Machine.execBadgerReport c s
  | .ctxSave c cmem => Sys2Proof.Machine.execCtxSave c cmem s
  | .ctxSaveDone c => Sys2Proof.Machine.execCtxSaveDone c s
  | .ctxRestore c cmem => Sys2Proof.Machine.execCtxRestore c cmem s
  | .ctxRestoreDone c => Sys2Proof.Machine.execCtxRestoreDone c s
  | .cmemScrubStep c => Sys2Proof.Machine.execCmemScrubStep c s
  | .cmemClearDone c => Sys2Proof.Machine.execCmemClearDone c s
  | .cmemQuantum c => Sys2Proof.Machine.execCmemQuantum c s
  | .sliceAccess die op ce ue => Sys2Proof.Machine.execSliceAccess die op ce ue s
  | .atomic die code pa a cmp => Sys2Proof.Machine.execAtomic die code pa a cmp s
  | .postedReduction die op pa data poison => Sys2Proof.Machine.execPostedReduction die op pa data poison s
  | .hbmScrubStep k => Sys2Proof.Machine.execHbmScrubStep k s
  | .hmcCalWindow k pass temp odecc => Sys2Proof.Machine.execHmcCalWindow k pass temp odecc s
  | .hmcCalWindowEnd k => Sys2Proof.Machine.execHmcCalWindowEnd k s
  | .hmcCalDefer k => Sys2Proof.Machine.execHmcCalDefer k s
  | .dmaChDoorbell ch => Sys2Proof.Machine.execDmaChDoorbell ch s
  | .dmaPollExpire ch => Sys2Proof.Machine.execDmaPollExpire ch s
  | .dmaDescFetch ch fail => Sys2Proof.Machine.execDmaDescFetch ch fail s
  | .dmaDataMove ch j => Sys2Proof.Machine.execDmaDataMove ch j s
  | .dmaXferFail ch j write => Sys2Proof.Machine.execDmaXferFail ch j write s
  | .dmaWriteTimeout ch j => Sys2Proof.Machine.execDmaWriteTimeout ch j s
  | .dmaWriteback ch => Sys2Proof.Machine.execDmaWriteback ch s
  | .dmaCoalTimeout ch => Sys2Proof.Machine.execDmaCoalTimeout ch s
  | .dmaChEn ch en => Sys2Proof.Machine.execDmaChEn ch en s
  | .dmaChDisable ch dis => Sys2Proof.Machine.execDmaChDisable ch dis s
  | .putReceive p h data e => Sys2Proof.Machine.execPutReceive p h data e s
  | .getReceive p h e => Sys2Proof.Machine.execGetReceive p h e s
  | .getRspReceive p h data e => Sys2Proof.Machine.execGetRspReceive p h data e s
  | .amoReceive p h data e => Sys2Proof.Machine.execAmoReceive p h data e s
  | .amoRspReceive p h data e => Sys2Proof.Machine.execAmoRspReceive p h data e s
  | .ackReceive p h e => Sys2Proof.Machine.execAckReceive p h e s
  | .fwdPacket p h data mesh e => Sys2Proof.Machine.execFwdPacket p h data mesh e s
  | .colUpReceive p h data e => Sys2Proof.Machine.execColUpReceive p h data e s
  | .colChunkCombine id off => Sys2Proof.Machine.execColChunkCombine id off s
  | .colDnReceive p h data e => Sys2Proof.Machine.execColDnReceive p h data e s
  | .mgmtReceive p h data self e => Sys2Proof.Machine.execMgmtReceive p h data self e s
  | .linkCreditSend p => Sys2Proof.Machine.execLinkCreditSend p s
  | .calNextReceive p h e => Sys2Proof.Machine.execCalNextReceive p h e s
  | .calDeferReceive p h e => Sys2Proof.Machine.execCalDeferReceive p h e s
  | .calStartReceive p h e => Sys2Proof.Machine.execCalStartReceive p h e s
  | .calEndReceive p h e => Sys2Proof.Machine.execCalEndReceive p h e s
  | .portRetrain p => Sys2Proof.Machine.execPortRetrain p s
  | .portHoldDown p => Sys2Proof.Machine.execPortHoldDown p s
  | .portSignalLoss p => Sys2Proof.Machine.execPortSignalLoss p s
  | .portSignalReturn p => Sys2Proof.Machine.execPortSignalReturn p s
  | .fabSqDoorbell n => Sys2Proof.Machine.execFabSqDoorbell n s
  | .fabSqPollExpire n => Sys2Proof.Machine.execFabSqPollExpire n s
  | .fabSendPut who => Sys2Proof.Machine.execFabSendPut who s
  | .fabSendGet who => Sys2Proof.Machine.execFabSendGet who s
  | .fabSendAmo n => Sys2Proof.Machine.execFabSendAmo n s
  | .fabSendCol n gate => Sys2Proof.Machine.execFabSendCol n gate s
  | .fabPacketSend p slot => Sys2Proof.Machine.execFabPacketSend p slot s
  | .fabCqCoalTimeout n => Sys2Proof.Machine.execFabCqCoalTimeout n s
  | .fabTagTimeout tag => Sys2Proof.Machine.execFabTagTimeout tag s
  | .fabMsgRelease n slot rank => Sys2Proof.Machine.execFabMsgRelease n slot rank s
  | .fabSqDisable n => Sys2Proof.Machine.execFabSqDisable n s
  | .fabSelfWrite v => Sys2Proof.Machine.execFabSelfWrite v s
  | .slpCalWindow p => Sys2Proof.Machine.execSlpCalWindow p s
  | .slpCalWindowEnd p => Sys2Proof.Machine.execSlpCalWindowEnd p s
  | .slpCalDefer p => Sys2Proof.Machine.execSlpCalDefer p s
  | .stepArm n => Sys2Proof.Machine.execStepArm n s
  | .stashAssignDone n => Sys2Proof.Machine.execStashAssignDone n s
  | .gateTimeout n => Sys2Proof.Machine.execGateTimeout n s
  | .owlJobStop n code => Sys2Proof.Machine.execOwlJobStop n code s
  | .owlForceFence => Sys2Proof.Machine.execOwlForceFence s
  | .owlClrSpare => Sys2Proof.Machine.execOwlClrSpare s
  | .owlForceSnap => Sys2Proof.Machine.execOwlForceSnap s
  | .owlInterval => Sys2Proof.Machine.execOwlInterval s
  | .owlLogRestart k v => Sys2Proof.Machine.execOwlLogRestart k v s
  | .sqrFirstTouchDone pg => Sys2Proof.Machine.execSqrFirstTouchDone pg s
  | .sqrSweepSend pg => Sys2Proof.Machine.execSqrSweepSend pg s
  | .sqrBudgetQuantum => Sys2Proof.Machine.execSqrBudgetQuantum s
  | .sqrMergeDone n => Sys2Proof.Machine.execSqrMergeDone n s
  | .sqrStart n => Sys2Proof.Machine.execSqrStart n s
  | .sqrRollback n => Sys2Proof.Machine.execSqrRollback n s
  | .sqrPrepare n => Sys2Proof.Machine.execSqrPrepare n s
  | .sqrPush n => Sys2Proof.Machine.execSqrPush n s
  | .sqrSend n => Sys2Proof.Machine.execSqrSend n s
  | .sqrReparity n => Sys2Proof.Machine.execSqrReparity n s
  | .sqrPhaseDone n => Sys2Proof.Machine.execSqrPhaseDone n s
  | .sqDoorbell q v ep => Sys2Proof.Machine.execSqDoorbell q v ep s
  | .cmdFetch q e => Sys2Proof.Machine.execCmdFetch q e s
  | .cmdHeldAccept sid => Sys2Proof.Machine.execCmdHeldAccept sid s
  | .cmdGapTimeout sid seq => Sys2Proof.Machine.execCmdGapTimeout sid seq s
  | .nop q => Sys2Proof.Machine.execNop q s
  | .run q => Sys2Proof.Machine.execRun q s
  | .wait q => Sys2Proof.Machine.execWait q s
  | .suspend q => Sys2Proof.Machine.execSuspend q s
  | .resume q => Sys2Proof.Machine.execResume q s
  | .cancel q => Sys2Proof.Machine.execCancel q s
  | .release q => Sys2Proof.Machine.execRelease q s
  | .controlCmdComplete sid => Sys2Proof.Machine.execControlCmdComplete sid s
  | .runStart sid => Sys2Proof.Machine.execRunStart sid s
  | .runDone sid => Sys2Proof.Machine.execRunDone sid s
  | .runSuspendDone sid => Sys2Proof.Machine.execRunSuspendDone sid s
  | .runCancelDone sid => Sys2Proof.Machine.execRunCancelDone sid s
  | .journalScan => Sys2Proof.Machine.execJournalScan s
  | .cmdJrnlEnable rcv => Sys2Proof.Machine.execCmdJrnlEnable rcv s
  | .jrnlZeroDone => Sys2Proof.Machine.execJrnlZeroDone s
  | .cmdPause pause => Sys2Proof.Machine.execCmdPause pause s
  | .jrnlCopyDone => Sys2Proof.Machine.execJrnlCopyDone s
  | .cmdStreamReset sid => Sys2Proof.Machine.execCmdStreamReset sid s
  | .jobCoresWrite n m v => Sys2Proof.Machine.execJobCoresWrite n m v s
  | .sqEnWrite q en => Sys2Proof.Machine.execSqEnWrite q en s
  | .calSlot e => Sys2Proof.Machine.execCalSlot e s
  | .calDeadline e => Sys2Proof.Machine.execCalDeadline e s
  | .flr => Sys2Proof.Machine.execFlr s
  | .bar2Read off n => Sys2Proof.Machine.execBar2Read off n s
  | .bar2Write off data ep => Sys2Proof.Machine.execBar2Write off data ep s
  | .bar2Atomic off op sz a cmp => Sys2Proof.Machine.execBar2Atomic off op sz a cmp s
  | .pcieCplTimeout r => Sys2Proof.Machine.execPcieCplTimeout r s
  | .aonTick => Sys2Proof.Machine.execAonTick s
  | .aonTickRead => Sys2Proof.Machine.execAonTickRead s
  | .wakeEvent cause => Sys2Proof.Machine.execWakeEvent cause s
  | .aonWakeTimer => Sys2Proof.Machine.execAonWakeTimer s
  | .stateExitDone bad lanes => Sys2Proof.Machine.execStateExitDone bad lanes s
  | .leaveBudgetRecompute watts => Sys2Proof.Machine.execLeaveBudgetRecompute watts s
  | .leaveGrant => Sys2Proof.Machine.execLeaveGrant s
  | .leaveTimeout c p => Sys2Proof.Machine.execLeaveTimeout c p s
  | .leaveReturn c p => Sys2Proof.Machine.execLeaveReturn c p s
  | .capClockStep avg ack => Sys2Proof.Machine.execCapClockStep avg ack s
  | .paceStep avg => Sys2Proof.Machine.execPaceStep avg s
  | .tempLimit t ack => Sys2Proof.Machine.execTempLimit t ack s
  | .thermCrit t => Sys2Proof.Machine.execThermCrit t s
  | .vddDroop => Sys2Proof.Machine.execVddDroop s
  | .pllLockLoss p => Sys2Proof.Machine.execPllLockLoss p s
  | .railFault rail us => Sys2Proof.Machine.execRailFault rail us s
  | .coldReset perst => Sys2Proof.Machine.execColdReset perst s
  | .warmReset key => Sys2Proof.Machine.execWarmReset key s
  | .pcieHotReset => Sys2Proof.Machine.execPcieHotReset s
  | .computeReset key => Sys2Proof.Machine.execComputeReset key s
  | .computeResetDone => Sys2Proof.Machine.execComputeResetDone s
  | .rstJob n => Sys2Proof.Machine.execRstJob n s
  | .jobResetDone n => Sys2Proof.Machine.execJobResetDone n s
  | .rstCore c => Sys2Proof.Machine.execRstCore c s
  | .coreResetDone c => Sys2Proof.Machine.execCoreResetDone c s
  | .bootFuse ok trng => Sys2Proof.Machine.execBootFuse ok trng s
  | .bootManifest flash bad x => Sys2Proof.Machine.execBootManifest flash bad x s
  | .bootMpLoad flash => Sys2Proof.Machine.execBootMpLoad flash s
  | .bootTrain x => Sys2Proof.Machine.execBootTrain x s
  | .bootCoreLoad miss => Sys2Proof.Machine.execBootCoreLoad miss s
  | .chunkResendRound c bad => Sys2Proof.Machine.execChunkResendRound c bad s
  | .bootQualify tests => Sys2Proof.Machine.execBootQualify tests s
  | .bootPeer p x => Sys2Proof.Machine.execBootPeer p x s
  | .bootReady => Sys2Proof.Machine.execBootReady s
  | .stageChunk k => Sys2Proof.Machine.execStageChunk k s
  | .stageHbm => Sys2Proof.Machine.execStageHbm s
  | .verify => Sys2Proof.Machine.execVerify s
  | .writeFlash => Sys2Proof.Machine.execWriteFlash s
  | .flashWriteDone ok => Sys2Proof.Machine.execFlashWriteDone ok s
  | .activate => Sys2Proof.Machine.execActivate s
  | .coreImageReload c miss => Sys2Proof.Machine.execCoreImageReload c miss s
  | .forceRecovery => Sys2Proof.Machine.execForceRecovery s
  | .writeIdcache => Sys2Proof.Machine.execWriteIdcache s
  | .abort => Sys2Proof.Machine.execAbort s
  | .quote => Sys2Proof.Machine.execQuote s
  | .extend m => Sys2Proof.Machine.execExtend m s
  | .debugChallenge => Sys2Proof.Machine.execDebugChallenge s
  | .debugUnlock => Sys2Proof.Machine.execDebugUnlock s
  | .debugLock => Sys2Proof.Machine.execDebugLock s
  | .debugExpire => Sys2Proof.Machine.execDebugExpire s
  | .setOwner => Sys2Proof.Machine.execSetOwner s
  | .advanceSvn v => Sys2Proof.Machine.execAdvanceSvn v s
  | .refclkLoss slp => Sys2Proof.Machine.execRefclkLoss slp s
  | .refclkReturn slp drift => Sys2Proof.Machine.execRefclkReturn slp drift s
  | .railRecovery us perst => Sys2Proof.Machine.execRailRecovery us perst s
  | .portRetrainDone p lanes => Sys2Proof.Machine.execPortRetrainDone p lanes s
  | .linkCreditReceive p h e => Sys2Proof.Machine.execLinkCreditReceive p h e s
  | .clockStepUp avg t ack => Sys2Proof.Machine.execClockStepUp avg t ack s
  | .thermCritRelease t => Sys2Proof.Machine.execThermCritRelease t s

end Sys2Proof.Machine
end

