-- ==== Sys2Proof/Machine/Tick.lean ====
section
/-! DEFINITION. One main-clock cycle of the device: what every core does and counts in it, and what waits at home slices,
rings and links count in it. -/

namespace Sys2Proof.Machine

/-- One main-clock cycle of the device. -/
def Dev.cycleTick (d : Dev) : Dev :=
  let d1 := (d.cores.map (fun p => p.1)).foldl (fun d c => (((d.edgeTick c).ctxTick c).waitTick c).coreTick c) d
  { d1.txTick with cycle := d.cycle + 1 }

end Sys2Proof.Machine
end

