-- ==== Sys2Proof/WellFormed.lean ====
section
/-! DEFINITION. Which commands are well formed: what the types of their operands do not bound. A sender sends no other. -/

namespace Sys2Proof

open Sys2Proof.Machine

/-- One to 64 bytes within one 64-byte block. -/
def inBlock (a : Nat) (data : List Byte) : Bool := decide (0 < data.length) && decide (a % 64 + data.length ≤ 64)

/-- A mesh packet of up to three flits of 128 bytes: blocks of core memory, a write that R204 names, or a response (R32). -/
def Machine.MeshOp.wf : MeshOp → Bool
  | .read b n => decide (b < 65536) && decide (0 < n) && decide (n ≤ 6)
  | .write off data _ => meshWriteOk off data && decide (off < 0x400000)
  | .response data _ => decide (0 < data.length) && decide (data.length ≤ 384)

/-- An access of a home slice lies within one block of the address space (R227, R235). -/
def Machine.SliceOp.wf : SliceOp → Bool
  | .read a | .parity a | .evict a | .readRed a => decide (a < 2 ^ 48)
  | .write a data _ => decide (a < 2 ^ 48) && inBlock a data

/-- Findings of the boot's tests: cores, bridge rows, stacks, and lanes by port (R435). -/
def Machine.TrainFacts.wf (x : TrainFacts) : Bool :=
  x.cores.all (fun c => decide (c < 312)) && decide (x.wires.length = 2) && x.wires.all (fun l => decide (l.length = 12)) && x.stackT.all (fun i => decide (i < 16))
    && decide (x.lanes.length = 24) && x.lanes.all (fun l => decide (l < 16))

/-- Well-formed commands. -/
def Instr.wf : Instr → Bool
  | .regWrite _ n _ _ => decide (0 < n.val)
  | .cfgCommit _ e => e != 0
  | .cfgCommitDisarm _ => true
  | .coreEpochApply _ _ => true
  | .rstEpochReq _ _ _ => true
  | .deviceEpochApply => true
  | .coreFenceApply => true
  | .coreFenceRequest _ => true
  | .meshPacketDeliver _ _ op _ => op.wf
  | .reducePacketArrive _ _ _ _ p => decide (p.pkt.vals.length = 32)
  | .reduceChunkCombine _ _ => true
  | .mrun _ _ _ => true
  | .opEdgeEnter _ _ => true
  | .scaleBlockTake _ _ => true
  | .groupInject _ _ => true
  | .groupBoundary _ _ cells lane => (cells ++ lane).all (fun e => decide (e.row < 144) && decide (e.col < 64))
  | .decisionOpen _ _ => true
  | .slotParityError _ p _ _ r _ => p == 1 || decide (r.val < 48)
  | .opRetire _ _ => true
  | .planePause _ _ => true
  | .puFenceApply _ _ => true
  | .drain _ _ _ => true
  | .drainStart _ => true
  | .drainRow _ => true
  | .tload _ _ _ => true
  | .tableLoadDone _ => true
  | .csld _ _ _ => true
  | .bankWriteApply _ _ _ => true
  | .agset _ _ _ _ => true
  | .ldq _ _ _ => true
  | .stq _ _ _ => true
  | .loadEntryPush _ _ => true
  | .storeBlockWrite _ _ => true
  | .storeWriteTimeout _ => true
  | .mnop _ _ _ => true
  | .vnop _ _ _ => true
  | .vadd _ _ _ => true
  | .vsub _ _ _ => true
  | .vmul _ _ _ => true
  | .vfma _ _ _ => true
  | .vmin _ _ _ => true
  | .vmax _ _ _ => true
  | .vabs _ _ _ => true
  | .vneg _ _ _ => true
  | .vdiv _ _ _ => true
  | .vsqrt _ _ _ => true
  | .vrsq _ _ _ => true
  | .vcmp _ _ _ => true
  | .vsel _ _ _ => true
  | .vand _ _ _ => true
  | .vor _ _ _ => true
  | .vxor _ _ _ => true
  | .vpopc _ _ _ => true
  | .vcvt _ _ _ => true
  | .vred _ _ _ => true
  | .vmovi _ _ _ => true
  | .vmov _ _ _ => true
  | .vldq _ _ _ => true
  | .vstq _ _ _ => true
  | .vrds _ _ _ => true
  | .vregWriteback _ => true
  | .cnop _ _ _ => true
  | .cset _ _ _ => true
  | .cadd _ _ _ => true
  | .kcmp _ _ _ => true
  | .kcmpc _ _ _ => true
  | .brk _ _ _ => true
  | .jmp _ _ _ => true
  | .loop _ _ _ => true
  | .halt _ _ _ => true
  | .streamHalted _ _ => true
  | .ynop _ _ _ => true
  | .setf _ _ _ => true
  | .waitf _ _ _ => true
  | .epoch _ _ _ => true
  | .lnop _ _ _ => true
  | .snop _ _ _ => true
  | .strmFlagSet _ _ => true
  | .strmFlagClr _ _ => true
  | .strmStart _ _ _ => true
  | .badgerReport _ => true
  | .ctxSave _ _ => true
  | .ctxSaveDone _ => true
  | .ctxRestore _ _ => true
  | .ctxRestoreDone _ => true
  | .cmemScrubStep _ => true
  | .cmemClearDone _ => true
  | .cmemQuantum _ => true
  | .sliceAccess _ op _ _ => op.wf
  | .atomic _ _ _ _ _ => true
  | .postedReduction _ _ pa data _ => inBlock pa.toNat data
  | .hbmScrubStep _ => true
  | .hmcCalWindow _ _ _ _ => true
  | .hmcCalWindowEnd _ => true
  | .hmcCalDefer _ => true
  | .dmaChDoorbell _ => true
  | .dmaPollExpire _ => true
  | .dmaDescFetch _ _ => true
  | .dmaDataMove _ _ => true
  | .dmaXferFail _ _ _ => true
  | .dmaWriteTimeout _ _ => true
  | .dmaWriteback _ => true
  | .dmaCoalTimeout _ => true
  | .dmaChEn _ _ => true
  | .dmaChDisable _ _ => true
  | .putReceive _ _ data _ => decide (data.length ≤ 4096)
  | .getReceive _ _ _ => true
  | .getRspReceive _ _ data _ => decide (data.length ≤ 4096)
  | .amoReceive _ _ data _ => decide (data.length ≤ 4096)
  | .amoRspReceive _ _ data _ => decide (data.length ≤ 4096)
  | .ackReceive _ _ _ => true
  | .fwdPacket _ _ data _ _ => decide (data.length ≤ 4096)
  | .colUpReceive _ _ data _ => decide (data.length ≤ 4096)
  | .colChunkCombine _ _ => true
  | .colDnReceive _ _ data _ => decide (data.length ≤ 4096)
  | .mgmtReceive _ _ data _ _ => decide (data.length ≤ 4096)
  | .linkCreditSend _ => true
  | .calNextReceive _ _ _ => true
  | .calDeferReceive _ _ _ => true
  | .calStartReceive _ _ _ => true
  | .calEndReceive _ _ _ => true
  | .portRetrain _ => true
  | .portHoldDown _ => true
  | .portSignalLoss _ => true
  | .portSignalReturn _ => true
  | .fabSqDoorbell _ => true
  | .fabSqPollExpire _ => true
  | .fabSendPut _ => true
  | .fabSendGet _ => true
  | .fabSendAmo _ => true
  | .fabSendCol _ _ => true
  | .fabPacketSend _ _ => true
  | .fabCqCoalTimeout _ => true
  | .fabTagTimeout _ => true
  | .fabMsgRelease _ _ _ => true
  | .fabSqDisable _ => true
  | .fabSelfWrite _ => true
  | .slpCalWindow _ => true
  | .slpCalWindowEnd _ => true
  | .slpCalDefer _ => true
  | .stepArm _ => true
  | .stashAssignDone _ => true
  | .gateTimeout _ => true
  | .owlJobStop _ _ => true
  | .owlForceFence => true
  | .owlClrSpare => true
  | .owlForceSnap => true
  | .owlInterval => true
  | .owlLogRestart _ _ => true
  | .sqrFirstTouchDone _ => true
  | .sqrSweepSend _ => true
  | .sqrBudgetQuantum => true
  | .sqrMergeDone _ => true
  | .sqrStart _ => true
  | .sqrRollback _ => true
  | .sqrPrepare _ => true
  | .sqrPush _ => true
  | .sqrSend _ => true
  | .sqrReparity _ => true
  | .sqrPhaseDone _ => true
  | .sqDoorbell _ _ _ => true
  | .cmdFetch _ _ => true
  | .cmdHeldAccept _ => true
  | .cmdGapTimeout _ _ => true
  | .nop _ => true
  | .run _ => true
  | .wait _ => true
  | .suspend _ => true
  | .resume _ => true
  | .cancel _ => true
  | .release _ => true
  | .controlCmdComplete _ => true
  | .runStart _ => true
  | .runDone _ => true
  | .runSuspendDone _ => true
  | .runCancelDone _ => true
  | .journalScan => true
  | .cmdJrnlEnable _ => true
  | .jrnlZeroDone => true
  | .cmdPause _ => true
  | .jrnlCopyDone => true
  | .cmdStreamReset _ => true
  | .jobCoresWrite _ _ _ => true
  | .sqEnWrite _ _ => true
  | .calSlot _ => true
  | .calDeadline _ => true
  | .flr => true
  | .bar2Read off n => decide (0 < n.toNat) && decide (n.toNat ≤ 4096) && decide (off.toNat + n.toNat ≤ 2 ^ 41)
  | .bar2Write off data _ => decide (0 < data.length) && decide (data.length ≤ 4096) && decide (off.toNat + data.length ≤ 2 ^ 41)
  | .bar2Atomic off _ sz a cmp => decide (a.toNat < 2 ^ (8 * sz.bytes)) && decide (cmp.toNat < 2 ^ (8 * sz.bytes)) && decide (off.toNat % sz.bytes = 0)
  | .pcieCplTimeout _ => true
  | .aonTick => true
  | .aonTickRead => true
  | .wakeEvent _ => true
  | .aonWakeTimer => true
  | .stateExitDone _ lanes => decide (lanes.length = 24)
  | .leaveBudgetRecompute _ => true
  | .leaveGrant => true
  | .leaveTimeout _ _ => true
  | .leaveReturn _ _ => true
  | .capClockStep _ _ => true
  | .paceStep _ => true
  | .tempLimit _ _ => true
  | .thermCrit _ => true
  | .vddDroop => true
  | .pllLockLoss _ => true
  | .railFault _ _ => true
  | .coldReset _ => true
  | .warmReset _ => true
  | .pcieHotReset => true
  | .computeReset _ => true
  | .computeResetDone => true
  | .rstJob _ => true
  | .jobResetDone _ => true
  | .rstCore _ => true
  | .coreResetDone _ => true
  | .bootFuse _ _ => true
  | .bootManifest _ _ x => decide (x.lanes < 64) && decide (x.rate < 16)
  | .bootMpLoad _ => true
  | .bootTrain x => x.wf
  | .bootCoreLoad _ => true
  | .chunkResendRound _ _ => true
  | .bootQualify tests => decide (tests.length = 96)
  | .bootPeer _ x => decide (x.nonce.length = 32) && decide (x.port < 24)
  | .bootReady => true
  | .stageChunk _ => true
  | .stageHbm => true
  | .verify => true
  | .writeFlash => true
  | .flashWriteDone _ => true
  | .activate => true
  | .coreImageReload _ _ => true
  | .forceRecovery => true
  | .writeIdcache => true
  | .abort => true
  | .quote => true
  | .extend _ => true
  | .debugChallenge => true
  | .debugUnlock => true
  | .debugLock => true
  | .debugExpire => true
  | .setOwner => true
  | .advanceSvn _ => true
  | .refclkLoss _ => true
  | .refclkReturn _ _ => true
  | .railRecovery _ _ => true
  | .portRetrainDone _ _ => true
  | .linkCreditReceive _ _ _ => true
  | .clockStepUp _ _ _ => true
  | .thermCritRelease _ => true

end Sys2Proof
end

