-- ==== Sys2Proof/Safety.lean ====
section
/-! DEFINITION. The terms in which statements speak of runs: a command that completes, what it leaves alone, the words that
the two streams issue, and what every step keeps. -/

namespace Sys2Proof.Machine

/-- The command is answered by a next state, and of that state P holds. -/
def Completes (i : Instr) (s : State) (P : State → Prop) : Prop := ∃ t, exec i s = .next t ∧ P t

/-! ## What stays -/

/-- Every byte of memory reads as before, with the poison and the standing symbol errors of its block: device memory
as its home slices or core memory give it, and host memory. -/
def SameMemory (d e : Dev) : Prop :=
  (∀ a, e.peek1 a = d.peek1 a) ∧ (∀ a, e.peekPoison a = d.peekPoison a) ∧ e.errs = d.errs
    ∧ (∀ a, cellAt e.hostMem a = cellAt d.hostMem a) ∧ e.hostPoison = d.hostPoison

/-- Every byte of memory reads as before but those of a set of device addresses. -/
def SameMemoryBut (f : Nat → Prop) (d e : Dev) : Prop :=
  (∀ a, ¬ f a → e.peek1 a = d.peek1 a) ∧ (∀ a, cellAt e.hostMem a = cellAt d.hostMem a)

/-- Every core but one is as before. -/
def SameCoresBut (c : Nat) (d e : Dev) : Prop := ∀ x, x ≠ c → e.core x = d.core x

/-- Every core is as before. -/
def SameCores (d e : Dev) : Prop := ∀ x, e.core x = d.core x

/-- Every register but those of a list has the value in effect, and the shadow, that it had. -/
def SameRegsBut (l : List Nat) (d e : Dev) : Prop := ∀ a, a ∉ l → e.reg a = d.reg a ∧ e.shad a = d.shad a

/-- What lies outside cores, registers, memory and interrupts: stacks, DMA channels, routers, fabric, command streams,
Squirrel, Owl, power, trust, firmware. -/
def SameUnits (d e : Dev) : Prop :=
  e.stackT = d.stackT ∧ e.chans = d.chans ∧ e.redBuf = d.redBuf ∧ e.redFly = d.redFly ∧ e.redOut = d.redOut
    ∧ e.images = d.images ∧ e.sqrJobs = d.sqrJobs ∧ e.sqrPages = d.sqrPages ∧ e.fences = d.fences ∧ e.fab = d.fab
    ∧ e.cb = d.cb ∧ e.leaveQ = d.leaveQ ∧ e.grants = d.grants ∧ e.budget = d.budget ∧ e.owl = d.owl ∧ e.pw = d.pw
    ∧ e.tru = d.tru ∧ e.fw = d.fw

/-- No interrupt message leaves and none becomes pending. -/
def SameInts (d e : Dev) : Prop := e.sent = d.sent ∧ e.pba = d.pba

/-! ## Accesses that go ahead -/

/-- The blocks that a line holds have 64 bytes. -/
def CLine.whole (l : CLine) : Prop := (l.v0 = true → l.d0.length = 64) ∧ (l.v1 = true → l.d1.length = 64)

/-- The home slices agree with what the stacks store, so a line that makes way for another changes no byte: every line is whole with no symbol error under
it, a clean line's blocks stand so in storage, a dirty line's stack is not held down, and no stack is about to inject an error. -/
def Dev.slicesAgree (d : Dev) : Prop :=
  (∀ p ∈ d.cache, p.2.whole ∧ d.errs.getD (2 * p.1) [] = [] ∧ d.errs.getD (2 * p.1 + 1) [] = []
    ∧ (p.2.dirty = true → (d.stack (keyStack (128 * p.1))).held = false)
    ∧ (p.2.dirty = false → (p.2.v0 = true → p.2.d0 = cellsAt d.mem (128 * p.1) 64 ∧ p.2.p0 = d.poison.contains (2 * p.1))
        ∧ (p.2.v1 = true → p.2.d1 = cellsAt d.mem (128 * p.1 + 64) 64 ∧ p.2.p1 = d.poison.contains (2 * p.1 + 1))))
  ∧ ∀ i, i < 16 → d.reg (aHmc i 0x18) = 0

/-- The HBM block of an address holds no error and can be reached: its stack is not held down or its home slice has the block, no symbol error stands in
its line, and what the slices hold agrees with what is stored. -/
def Dev.soundBlock (d : Dev) (pa : Nat) : Prop :=
  pa < hbmEnd ∧ ((d.stack (keyStack (d.hbmKey pa))).held = false ∨ (d.line (d.hbmKey pa)).has (d.hbmKey pa) = true)
    ∧ (∀ b, b / 2 = d.hbmKey pa / 128 → d.errs.getD b [] = []) ∧ d.slicesAgree

/-- An access to the HBM block of an address goes ahead at once and finds no error: no first-touch copy and no calibration window delays it, and its page
needs no first touch. -/
def Dev.servesBlock (d : Dev) (pa : Nat) : Prop := d.soundBlock pa ∧ d.hbmWaits pa true = false ∧ d.sqrProtects pa = none

/-- Every block of a range of HBM is sound, and no stack that it lies in is held down. -/
def Dev.soundRange (d : Dev) (pa n : Nat) : Prop := ∀ i, i < n → d.soundBlock (pa + i) ∧ (d.stack (keyStack (d.hbmKey (pa + i)))).held = false

/-- Every block of a range of HBM goes ahead at once, and Squirrel protects nothing. -/
def Dev.servesRange (d : Dev) (pa n : Nat) : Prop :=
  d.bit (aSqr 0x100) 31 = false ∧ d.soundRange pa n ∧ ∀ i, i < n → d.servesBlock (pa + i)

/-- The link layer of a port delivers the packet of a header: the port is up, no codeword of it is uncorrectable, its HCRC is right, and
its number is the next. -/
def Dev.linkTakes (d : Dev) (p h : Nat) (e : FecErrs) : Prop :=
  (d.port p).up = true ∧ e.ue = 0 ∧ hcrcOk h = true ∧ bitsN h 42 31 = ((d.port p).rxSeq + 1) % 4096

/-- A packet of a type is taken at its destination: delivered by the link layer, of the length its header says, of a job and rank served here. -/
def Dev.takes (d : Dev) (p type h : Nat) (data : List Byte) (e : FecErrs) : Prop :=
  d.linkTakes p h e ∧ (Tx.ofHeader h data).pkt.arrives type = true ∧ d.expects (Tx.ofHeader h data).pkt = true

/-- The command block takes the command c at HEAD of a queue in host memory as its stream's next: it takes commands, the queue is enabled and not empty, the link serves the read,
the stream's entry is in the stream cache, and R373, R374, R378 and R379 accept the command. -/
def Dev.acceptsNext (d : Dev) (q c : Nat) : Prop :=
  d.cmdTakes = true ∧ d.bit (aSq q 8) 31 = true ∧ ((d.sq q).st = .active ∨ (d.sq q).st = .stalled) ∧ (d.sq q).head ≠ (d.sq q).tail
    ∧ d.sqHost q = true ∧ d.cb.up = true ∧ d.cb.bme = true
    ∧ d.hostRead (d.sqAt q (d.sq q).head) 64 = (cellsAt d.hostMem (d.sqAt q (d.sq q).head) 64, false)
    ∧ c = ofBytesLE (cellsAt d.hostMem (d.sqAt q (d.sq q).head) 64)
    ∧ d.cmdEncBad c = false ∧ d.cb.cached.contains (cmdStream c) = true ∧ d.cmdJobBad c (d.fld (aSq q 8) 29 24) = false
    ∧ d.cmdTargetBad c (d.fld (aSq q 8) 29 24) = false
    ∧ seqClass (d.strm (cmdStream c)).job.isSome (d.strm (cmdStream c)).last (cmdSeq c) = .next ∧ (d.strm (cmdStream c)).takes c = true

/-- The record of a command in host memory holds a word of 8 bytes. -/
def Dev.hostWord (d : Dev) (c off w : Nat) : Prop := cmdCplHost c = true → cellsAt d.hostMem (cmdCpl c + off) 8 = bytesLE 8 w

/-- Every DMA channel but one is as before. -/
def SameChansBut (ch : Nat) (d e : Dev) : Prop := ∀ x, x ≠ ch → e.chan x = d.chan x

/-! ## After a reset (R420) -/

/-- A device as a cold reset of a cause leaves it: registers at their reset values but RST_CAUSE, nothing in progress; the host's memory, the fuses and the flash stay. -/
def AfterCold (why : Nat) (d e : Dev) : Prop :=
  (∀ a, a ≠ aAon 0x108 → e.reg a = resetVal a ∧ e.shad a = resetVal a) ∧ e.fld (aAon 0x108) 19 16 = why ∧ (∀ a, e.peek1 a = memDefault)
    ∧ (∀ c, e.core c = {}) ∧ (∀ i, e.stack i = {}) ∧ (∀ ch, e.chan ch = {}) ∧ e.fab = {} ∧ e.cb = {} ∧ e.sqrJobs = [] ∧ e.sqrPages = []
    ∧ e.tick = 0 ∧ (e.pw.cur = 0 ∧ e.pw.leaving = false ∧ e.grants = [] ∧ e.leaveQ = [])
    ∧ (∀ a, cellAt e.hostMem a = cellAt d.hostMem a) ∧ (∀ a, e.flashAt a = d.flashAt a)
    ∧ e.tru.owner = d.tru.owner ∧ e.tru.revoked = d.tru.revoked ∧ e.tru.minSvn = d.tru.minSvn ∧ e.tru.blocks = d.tru.blocks

/-- A device as a warm reset of a cause leaves it: as after a cold reset, but the always-on domain, the peers' keys and what HBM stores stay; HBM is in self-refresh. -/
def AfterWarm (why : Nat) (d e : Dev) : Prop :=
  (∀ a, warmKept a = true → a ≠ aAon 0x108 → a ≠ aAon 0x10C → e.reg a = d.reg a)
    ∧ (∀ a, warmKept a = false → (∀ i, i < 16 → a / 0x1000 ≠ aHmc i 0 / 0x1000) → e.reg a = resetVal a)
    ∧ e.fld (aAon 0x108) 19 16 = why ∧ e.reg (aAon 0x10C) = satAdd (d.reg (aAon 0x10C)) 1 ∧ e.tick = d.tick
    ∧ (∀ k, k < hbmEnd → cellAt e.mem k = cellAt d.mem k) ∧ e.cache = [] ∧ (∀ i, i < 16 → (e.stack i).selfRefresh = true)
    ∧ (∀ c, e.core c = {}) ∧ (∀ ch, e.chan ch = {}) ∧ e.fab = {} ∧ e.cb = {} ∧ e.sqrJobs = []
    ∧ (∀ a, cellAt e.hostMem a = cellAt d.hostMem a) ∧ (∀ a, e.flashAt a = d.flashAt a)
    ∧ e.tru.owner = d.tru.owner ∧ e.tru.minSvn = d.tru.minSvn ∧ e.tru.blocks = d.tru.blocks ∧ e.tru.leaf = d.tru.leaf

/-- A device in compute reset of a cause: every core in reset with its streams idle and its job kept, channels, sends and tags cleared, the shared caches written back and empty;
the command streams and their queues stay. -/
def InComputeReset (why : Nat) (d e : Dev) : Prop :=
  e.bit (aRst 0x10C) 0 = true ∧ e.fld (aAon 0x108) 19 16 = why
    ∧ (∀ c, c < 312 → (e.core c).inReset = true ∧ (e.core c).x.st = .idle ∧ (e.core c).a.st = .idle ∧ (e.core c).flags = 0 ∧ (e.core c).job = (d.core c).job)
    ∧ e.chans = [] ∧ e.fab.sends = [] ∧ e.fab.tags = [] ∧ e.cache = [] ∧ e.cb.streams = d.cb.streams ∧ e.pw.jobRst = []

/-! ## What every step keeps -/

/-- Both memories are in their canonical form, every line that a home slice holds is whole, the tables of cores and of command streams list rising keys, the
power state is one of A0 to A4, and no more than 64 MIN_SVN bits are blown. -/
def Dev.Inv (d : Dev) : Prop :=
  Memory.wf d.mem = true ∧ Memory.wf d.hostMem = true ∧ (∀ p ∈ d.cache, p.2.whole) ∧ Tbl.risesFrom 0 d.cores = true
    ∧ Tbl.risesFrom 0 d.cb.streams = true ∧ d.pw.cur ≤ 4 ∧ d.tru.minSvn ≤ 64

/-! ## Words of the two streams (R145) -/

/-- A word of either stream. -/
inductive StreamWord where
  | x (w : XWord)
  | a (w : AWord)
  deriving DecidableEq, Repr

/-- Is it a word of the execute stream? -/
def StreamWord.exec : StreamWord → Bool
  | .x _ => true
  | .a _ => false

/-- Its scalar slot and its sync slot. -/
def StreamWord.s : StreamWord → Nat
  | .x w => w.s
  | .a w => w.s
def StreamWord.y : StreamWord → Nat
  | .x w => w.y
  | .a w => w.y

/-- What the word meets at issue on core c. -/
def StreamWord.check (w : StreamWord) (c : Nat) (d : Dev) : Check :=
  match w with
  | .x v => d.xCheck c v
  | .a v => d.aCheck c v

/-- The core's clock runs and the word's stream may try it in this cycle. -/
def StreamWord.tried (w : StreamWord) (c : Nat) (d : Dev) : Prop := d.clockOn = true ∧ d.mayIssue c w.exec = true

/-- The word issues now. -/
def StreamWord.issues (w : StreamWord) (c : Nat) (d : Dev) : Prop := w.tried c d ∧ w.check c d = .ok

/-- The word of a scalar slot, and the word of a sync slot, with its other slots. -/
def SRest.whole (w : SRest) (op : BitVec 4) (s : BitVec 36) : StreamWord :=
  match w with
  | .x m v y => .x ⟨m.toNat, v.toNat, (op ++ s).toNat, y.toNat⟩
  | .a l t y => .a ⟨l.toNat, t.toNat, (op ++ s).toNat, y.toNat⟩
def YRest.whole (w : YRest) (op : BitVec 4) (y : BitVec 20) : StreamWord :=
  match w with
  | .x m v s => .x ⟨m.toNat, v.toNat, s.toNat, (op ++ y).toNat⟩
  | .a l t s => .a ⟨l.toNat, t.toNat, s.toNat, (op ++ y).toNat⟩

end Sys2Proof.Machine

namespace Sys2Proof

open Sys2Proof.Machine

/-- The core and the word that a stream-word command issues; none for every other command. -/
def Instr.word : Instr → Option (CoreNo × StreamWord)
  | .mnop c v w => some (c, .x (w.word 0x0 v))
  | .vnop c v w => some (c, .x (w.word 0x00 v))
  | .vadd c v w => some (c, .x (w.word 0x01 v))
  | .vsub c v w => some (c, .x (w.word 0x02 v))
  | .vmul c v w => some (c, .x (w.word 0x03 v))
  | .vfma c v w => some (c, .x (w.word 0x04 v))
  | .vmin c v w => some (c, .x (w.word 0x05 v))
  | .vmax c v w => some (c, .x (w.word 0x06 v))
  | .vabs c v w => some (c, .x (w.word 0x07 v))
  | .vneg c v w => some (c, .x (w.word 0x08 v))
  | .vdiv c v w => some (c, .x (w.word 0x09 v))
  | .vsqrt c v w => some (c, .x (w.word 0x0A v))
  | .vrsq c v w => some (c, .x (w.word 0x0B v))
  | .vcmp c v w => some (c, .x (w.word 0x0C v))
  | .vsel c v w => some (c, .x (w.word 0x0D v))
  | .vand c v w => some (c, .x (w.word 0x10 v))
  | .vor c v w => some (c, .x (w.word 0x11 v))
  | .vxor c v w => some (c, .x (w.word 0x12 v))
  | .vpopc c v w => some (c, .x (w.word 0x13 v))
  | .vcvt c v w => some (c, .x (w.word 0x14 v))
  | .vred c v w => some (c, .x (w.word 0x18 v))
  | .vmovi c v w => some (c, .x (w.word 0x20 v))
  | .vmov c v w => some (c, .x (w.word 0x21 v))
  | .vldq c v w => some (c, .x (w.word 0x28 v))
  | .vstq c v w => some (c, .x (w.word 0x29 v))
  | .vrds c v w => some (c, .x (w.word 0x2A v))
  | .mrun c v w => some (c, .x (w.word 0x1 v))
  | .drain c v w => some (c, .x (w.word 0x2 v))
  | .lnop c l w => some (c, .a (w.loadWord 0x0 l))
  | .snop c l w => some (c, .a (w.storeWord 0x0 l))
  | .tload c l w => some (c, .a (w.loadWord 0x2 l))
  | .csld c l w => some (c, .a (w.loadWord 0x3 l))
  | .agset c b l w => some (c, .a (if b then w.storeWord 0x4 l else w.loadWord 0x4 l))
  | .ldq c l w => some (c, .a (w.loadWord 0x1 l))
  | .stq c l w => some (c, .a (w.storeWord 0x1 l))
  | .cnop c x w => some (c, (w.whole 0x0 x))
  | .cset c x w => some (c, (w.whole 0x1 x))
  | .cadd c x w => some (c, (w.whole 0x2 x))
  | .kcmp c x w => some (c, (w.whole 0x3 x))
  | .kcmpc c x w => some (c, (w.whole 0x4 x))
  | .brk c x w => some (c, (w.whole 0x5 x))
  | .jmp c x w => some (c, (w.whole 0x6 x))
  | .loop c x w => some (c, (w.whole 0x7 x))
  | .halt c x w => some (c, (w.whole 0x8 x))
  | .ynop c x w => some (c, (w.whole 0x0 x))
  | .setf c x w => some (c, (w.whole 0x1 x))
  | .waitf c x w => some (c, (w.whole 0x2 x))
  | .epoch c x w => some (c, (w.whole 0x3 x))
  | _ => none

end Sys2Proof

/-! ## What a word that issues leaves -/

namespace Sys2Proof.Machine

/-- What a vector instruction with result function f leaves: the destination register, read at the issue cycle plus the
latency, holds f of the source lanes as the word saw them; reads of an earlier cycle see what they saw; every other
register reads as before (R160). -/
def LaneResult (s t : State) (c : CoreNo) (v : Nat) (f : Word → Word → Word → Word) : Prop :=
  let k := s.core c
  (∀ j, j < 64 → ((t.core c).vread (vD v) (s.cycle + vLatency v)).lane j
      = f ((k.vread (vA v) s.cycle).lane j) ((k.vread (vB v) s.cycle).lane j) ((k.vread (vC v) s.cycle).lane j))
  ∧ (∀ r n, n < s.cycle + vLatency v → (t.core c).vread r n = k.vread r n)
  ∧ (∀ r n, r ≠ vD v → (t.core c).vread r n = k.vread r n)

/-- A vector slot with its opcode. -/
def vslot (op : BitVec 6) (v : BitVec 58) : Nat := (op ++ v).toNat

/-- The word with this vector slot issues, and its predicate holds. -/
def VReady (op : BitVec 6) (v : BitVec 58) (w : VRest) (c : CoreNo) (s : State) : Prop :=
  (StreamWord.x (w.word op v)).issues c s.toDev ∧ s.predTrue c (vslot op v) = true

/-- One lane of an arithmetic instruction: with PK = 0 the exact result rounded once to FP32; with PK = 1 each BF16 half
by itself, computed exactly and rounded once (R157). -/
def rounded (v : Nat) (f : Fp → Fp → Fp → Fp) (a b x : Word) : Word :=
  if vPk v = 0 then toF32 (f (f32 a) (f32 b) (f32 x))
  else
    let h (w : Word) (n : Nat) : Fp := bf16.decode (bitsN w.toNat (16 * n + 15) (16 * n))
    let r (n : Nat) : Nat := bf16.encodeIeee (f (h a n) (h b n) (h x n))
    BitVec.ofNat 32 (r 0 + r 1 * 2 ^ 16)

/-- What a scalar slot leaves of its stream: counters, comparators, the next word, the idle cycles after it. -/
def StreamResult (s t : State) (c : CoreNo) (exec : Bool) (ctr : Nat → Nat) (cond : Nat → Bool) (pc idle : Nat) (halting : Bool) : Prop :=
  (∀ n, ((t.core c).stream exec).counter n = ctr n) ∧ (∀ n, n < 4 → ((t.core c).stream exec).cond n = cond n)
    ∧ ((t.core c).stream exec).pc = pc ∧ ((t.core c).stream exec).nextIssue = s.cycle + 1 + idle
    ∧ ((t.core c).stream exec).halting = halting

/-- The word offset of a branch from word pc, in 24 bits. -/
def branchTo (pc x : Nat) : Nat := ((((pc : Int) + signedN (sImm x) 24) % (2 ^ 24 : Nat))).toNat

end Sys2Proof.Machine
end

