-- ==== Sys2Proof/Certificates/Slice0/Obligations.lean ====
section
/-! DEFINITION. The statements for the provers. A statement's docstring names the rules of spec/ it comes from, and what in it is
the model's own choice. -/

open Sys2Proof Sys2Proof.Machine

/-! ## The step -/

/-- A step takes the command at the front of the queue and runs it on the state with the queue's rest. -/
def Obligations.StepRunsFrontCommand : Prop :=
  ∀ (i : Instr) (s : State), step { s with pending := i :: s.pending } = exec i s

/-- Every command completes, and leaves the queue of waiting commands alone. -/
def Obligations.CommandsKeepTheQueue : Prop :=
  ∀ (i : Instr) (s : State), Completes i s (fun t => t.pending = s.pending)

/-- A step on an empty queue is one main-clock cycle: the cycle counter goes on by one and memory reads as before; with
the fast clocks stopped nothing changes (the model's choice, log entry 5). -/
def Obligations.IdleStepIsOneCycle : Prop :=
  ∀ s : State, s.pending = [] →
    ∃ t, step s = .next t ∧ t.pending = []
      ∧ (s.clockOn = true → t.cycle = s.cycle + 1 ∧ SameMemory s.toDev t.toDev)
      ∧ (s.clockOn = false → t = s)

/-! ## Words of the two streams -/

/-- VADD, VSUB, VMUL, VFMA, VMIN, VMAX, VDIV, VSQRT and VRSQ compute each element exactly and round it once (R157);
VCMP writes all ones or zero; VCVT converts each lane (R158); VABS, VNEG, VSEL, VAND, VOR, VXOR, VPOPC, VMOVI and VMOV act on the bits of each lane (R157). -/
def Obligations.VectorLaneOperations : Prop :=
  ∀ (s : State) (c : CoreNo) (v : BitVec 58) (w : VRest),
    (VReady 0x01 v w c s → Completes (.vadd c v w) s (fun t => LaneResult s t c (vslot 0x01 v) (rounded (vslot 0x01 v) (fun a b _ => a.add b))))
    ∧ (VReady 0x02 v w c s → Completes (.vsub c v w) s (fun t => LaneResult s t c (vslot 0x02 v) (rounded (vslot 0x02 v) (fun a b _ => a.add b.negate))))
    ∧ (VReady 0x03 v w c s → Completes (.vmul c v w) s (fun t => LaneResult s t c (vslot 0x03 v) (rounded (vslot 0x03 v) (fun a b _ => a.mul b))))
    ∧ (VReady 0x04 v w c s → Completes (.vfma c v w) s (fun t => LaneResult s t c (vslot 0x04 v) (rounded (vslot 0x04 v) (fun a b x => (a.mul b).add x))))
    ∧ (VReady 0x05 v w c s → Completes (.vmin c v w) s (fun t => LaneResult s t c (vslot 0x05 v) (rounded (vslot 0x05 v) (fun a b _ => a.minF b))))
    ∧ (VReady 0x06 v w c s → Completes (.vmax c v w) s (fun t => LaneResult s t c (vslot 0x06 v) (rounded (vslot 0x06 v) (fun a b _ => a.maxF b))))
    ∧ (VReady 0x09 v w c s → Completes (.vdiv c v w) s (fun t => LaneResult s t c (vslot 0x09 v) (rounded (vslot 0x09 v) (fun a b _ => a.div b))
        ∧ (t.core c).divNext = s.cycle + 4))
    ∧ (VReady 0x0A v w c s → Completes (.vsqrt c v w) s (fun t => LaneResult s t c (vslot 0x0A v) (rounded (vslot 0x0A v) (fun a _ _ => a.sqrt))
        ∧ (t.core c).divNext = s.cycle + 4))
    ∧ (VReady 0x0B v w c s → Completes (.vrsq c v w) s (fun t => LaneResult s t c (vslot 0x0B v) (rounded (vslot 0x0B v) (fun a _ _ => a.rsqrt))
        ∧ (t.core c).divNext = s.cycle + 4))
    ∧ (VReady 0x0C v w c s → Completes (.vcmp c v w) s (fun t => LaneResult s t c (vslot 0x0C v) (fun a b _ =>
        if vPk (vslot 0x0C v) = 0 then (if fpCond (bitsN (vslot 0x0C v) 1 0) (f32 a) (f32 b) then 0xFFFFFFFF else 0)
        else
          let h (x : Word) (n : Nat) : Fp := bf16.decode (bitsN x.toNat (16 * n + 15) (16 * n))
          let r (n : Nat) : Nat := if fpCond (bitsN (vslot 0x0C v) 1 0) (h a n) (h b n) then 0xFFFF else 0
          BitVec.ofNat 32 (r 0 + r 1 * 2 ^ 16))))
    ∧ (VReady 0x14 v w c s → Completes (.vcvt c v w) s (fun t => LaneResult s t c (vslot 0x14 v)
        (fun a _ _ => vConvert (bitsN (vslot 0x14 v) 7 4) (bitsN (vslot 0x14 v) 3 0) a)))
    ∧ (VReady 0x07 v w c s → Completes (.vabs c v w) s (fun t => LaneResult s t c (vslot 0x07 v) (fun a _ _ => a &&& 0x7FFFFFFF)))
    ∧ (VReady 0x08 v w c s → Completes (.vneg c v w) s (fun t => LaneResult s t c (vslot 0x08 v) (fun a _ _ => a ^^^ 0x80000000)))
    ∧ (VReady 0x0D v w c s → Completes (.vsel c v w) s (fun t => LaneResult s t c (vslot 0x0D v) (fun a b x => if x ≠ 0 then a else b)))
    ∧ (VReady 0x10 v w c s → Completes (.vand c v w) s (fun t => LaneResult s t c (vslot 0x10 v) (fun a b _ => a &&& b)))
    ∧ (VReady 0x11 v w c s → Completes (.vor c v w) s (fun t => LaneResult s t c (vslot 0x11 v) (fun a b _ => a ||| b)))
    ∧ (VReady 0x12 v w c s → Completes (.vxor c v w) s (fun t => LaneResult s t c (vslot 0x12 v) (fun a b _ => a ^^^ b)))
    ∧ (VReady 0x13 v w c s → Completes (.vpopc c v w) s (fun t => LaneResult s t c (vslot 0x13 v)
        (fun a _ _ => BitVec.ofNat 32 ((List.range 32).filter (fun n => a.getLsbD n)).length)))
    ∧ (VReady 0x20 v w c s → Completes (.vmovi c v w) s (fun t => LaneResult s t c (vslot 0x20 v) (fun _ _ _ => v.setWidth 32)))
    ∧ (VReady 0x21 v w c s → Completes (.vmov c v w) s (fun t => LaneResult s t c (vslot 0x21 v) (fun a _ _ => a)))

/-- VRED leaves its tree's result in lane 0 and +0 in lanes 1 to 63 (R157, R159); VLDQ takes 256 bytes from the front of a
load queue, lane j bytes 4j to 4j + 3, and poisons the 16 lanes of a poisoned entry; VRDS reads the head or tail words of
a row of a slot; VSTQ pushes the register's 256 bytes as four entries (R162). -/
def Obligations.VectorReductionAndQueues : Prop :=
  ∀ (s : State) (c : CoreNo) (v : BitVec 58) (w : VRest),
    (VReady 0x18 v w c s → Completes (.vred c v w) s (fun t =>
        ((t.core c).vread (vD (vslot 0x18 v)) (s.cycle + 8)).lane 0
            = vReduce (vslot 0x18 v) ((List.range 64).map ((s.core c).vread (vA (vslot 0x18 v)) s.cycle).lane)
        ∧ ∀ j, 0 < j → j < 64 → ((t.core c).vread (vD (vslot 0x18 v)) (s.cycle + 8)).lane j = 0))
    ∧ (VReady 0x28 v w c s → Completes (.vldq c v w) s (fun t =>
        let q := bitsN (vslot 0x28 v) 1 0
        (∀ j, j < 64 → ((t.core c).vread (vD (vslot 0x28 v)) (s.cycle + 2)).lane j
            = BitVec.ofNat 32 (ofBytesLE (((entryBytes (((s.core c).queue q).take 4)).drop (4 * j)).take 4)))
        ∧ (∀ j, j ∈ ((t.core c).vread (vD (vslot 0x28 v)) (s.cycle + 2)).bad ↔
            j < 64 ∧ ((((s.core c).queue q).take 4).getD (j / 16) { data := [] }).poison = true)
        ∧ (t.core c).queue q = ((s.core c).queue q).drop 4))
    ∧ (VReady 0x2A v w c s → Completes (.vrds c v w) s (fun t =>
        let row := s.slotRow c (bitsN (vslot 0x2A v) 33 32) (bitsN (vslot 0x2A v) 31 29) (bitsN (vslot 0x2A v) 28 21)
        ∀ j, j < 64 → ((t.core c).vread (vD (vslot 0x2A v)) (s.cycle + 6)).lane j
            = if bitN (vslot 0x2A v) 20 then (row.getD j {}).tail else (row.getD j {}).head))
    ∧ (VReady 0x29 v w c s → Completes (.vstq c v w) s (fun t =>
        let q := 4 + bitsN (vslot 0x29 v) 0 0
        let r := (s.core c).vread (vA (vslot 0x29 v)) s.cycle
        (∀ x n, (t.core c).vread x n = (s.core c).vread x n)
        ∧ ∃ es, (t.core c).queue q = (s.core c).queue q ++ es ∧ es.length = 4
          ∧ ∀ i, i < 4 → (es.getD i { data := [] }).data = (List.range 16).flatMap (fun j => bytesLE 4 (r.lane (16 * i + j)).toNat)
              ∧ ((es.getD i { data := [] }).poison = true ↔ ∃ j, j ∈ r.bad ∧ j / 16 = i)))

/-- Predicates (R161). One that is false leaves VD, and every other vector register, as it was; one that is true lets the instruction write VD as without a predicate. A word with PRED = 1 or 2 waits while the gate is
COLLECTING, REDUCING, FAILED or POISONED, and no word waits for the gate in any other case. With the gate NONE, or in a core of no job, PRED = 1 and PRED = 2 are both false. VLDQ, VSTQ and VRDS with another PRED than 0 fault. -/
def Obligations.PredicatesFollowTheGate : Prop :=
  ∀ (i : Instr) (s : State) (c : CoreNo) (w : XWord), i.word = some (c, .x w) →
    let gate : Nat := s.gateOf c
    let ready : Prop := (StreamWord.x w).issues c s.toDev
    (ready → vPred w.v ≠ 0 → ¬ (vPred w.v = 1 ∧ gate = 3) → ¬ (vPred w.v = 2 ∧ gate = 4) →
        Completes i s (fun t => ∀ r n, (t.core c).vread r n = (s.core c).vread r n))
    ∧ (ready → vPred w.v = 0 ∨ (vPred w.v = 1 ∧ gate = 3) ∨ (vPred w.v = 2 ∧ gate = 4) → vOp w.v ≠ 0 → vOp w.v ≠ 0x29 →
        Completes i s (fun t => (t.core c).vread (vD w.v) (s.cycle + vLatency w.v) = s.vResult c w.v))
    ∧ ((StreamWord.x w).tried c s.toDev → s.windowCheck c true = .ok → s.xEncoding c w = .ok → vPred w.v ≠ 0 → gate ∈ [1, 2, 5, 6] →
        ∃ x, (StreamWord.x w).check c s.toDev = .wait x)
    ∧ (gate ∉ [1, 2, 5, 6] ∨ vPred w.v = 0 → (StreamWord.x w).check c s.toDev ≠ .wait ⟨16, 0⟩)
    ∧ ((s.core c).job = none ∨ gate = 0 → gate ≠ 3 ∧ gate ≠ 4)
    ∧ (s.windowCheck c true = .ok → vPred w.v ≠ 0 → vOp w.v = 0x28 ∨ vOp w.v = 0x29 ∨ vOp w.v = 0x2A →
        ∃ u arg, (StreamWord.x w).check c s.toDev = .fault u arg)

/-- The scalar instructions (R164–R166): CSET, CADD, KCMP, KCMPC, BRK, JMP, LOOP, HALT and CNOP, in either stream. -/
def Obligations.ScalarInstructions : Prop :=
  ∀ (s : State) (c : CoreNo) (x : BitVec 36) (w : SRest),
    let st (op : BitVec 4) : Stream := (s.core c).stream (w.whole op x).exec
    let ready (op : BitVec 4) : Prop := (w.whole op x).issues c s.toDev
    let n (op : BitVec 4) : Nat := (op ++ x).toNat
    let leaves (op : BitVec 4) (t : State) (ctr : Nat → Nat) (cond : Nat → Bool) (pc idle : Nat) (h : Bool) : Prop :=
      StreamResult s t c (w.whole op x).exec ctr cond pc idle h
    (ready 0 → Completes (.cnop c x w) s (fun t => leaves 0 t (st 0).counter (st 0).cond ((st 0).pc + 1) 0 false))
    ∧ (ready 1 → Completes (.cset c x w) s (fun t => leaves 1 t
        (fun m => if m = sCa (n 1) then sImm (n 1) else (st 1).counter m) (st 1).cond ((st 1).pc + 1) 0 false))
    ∧ (ready 2 → Completes (.cadd c x w) s (fun t => leaves 2 t
        (fun m => if m = sCa (n 2) then ((st 2).counter m + sImm (n 2)) % 2 ^ 24 else (st 2).counter m) (st 2).cond ((st 2).pc + 1) 0 false))
    ∧ (ready 3 → Completes (.kcmp c x w) s (fun t => leaves 3 t (st 3).counter
        (fun m => if m = sKn (n 3) then kCond (sCond (n 3)) ((st 3).counter (sCa (n 3))) (sImm (n 3)) else (st 3).cond m) ((st 3).pc + 1) 0 false))
    ∧ (ready 4 → Completes (.kcmpc c x w) s (fun t => leaves 4 t (st 4).counter
        (fun m => if m = sKn (n 4) then kCond (sCond (n 4)) ((st 4).counter (sCa (n 4))) ((st 4).counter (sCb (n 4))) else (st 4).cond m)
        ((st 4).pc + 1) 0 false))
    ∧ (ready 5 → Completes (.brk c x w) s (fun t =>
        if (st 5).cond (sKn (n 5)) = bitN (n 5) 24 then leaves 5 t (st 5).counter (st 5).cond (branchTo (st 5).pc (n 5)) 2 false
        else leaves 5 t (st 5).counter (st 5).cond ((st 5).pc + 1) 0 false))
    ∧ (ready 6 → Completes (.jmp c x w) s (fun t => leaves 6 t (st 6).counter (st 6).cond (branchTo (st 6).pc (n 6)) 2 false))
    ∧ (ready 7 → Completes (.loop c x w) s (fun t =>
        let v := ((st 7).counter (sCa (n 7)) + 2 ^ 24 - 1) % 2 ^ 24
        let ctr := fun m => if m = sCa (n 7) then v else (st 7).counter m
        if v ≠ 0 then leaves 7 t ctr (st 7).cond (branchTo (st 7).pc (n 7)) 0 false
        else leaves 7 t ctr (st 7).cond ((st 7).pc + 1) 2 false))
    ∧ (ready 8 → Completes (.halt c x w) s (fun t => leaves 8 t (st 8).counter (st 8).cond ((st 8).pc + 1) 0 true))

/-- The sync instructions (R167, R427): SETF sets its flags; WAITF with CONSUME clears them but those set in the same
cycle, and without it leaves them; EPOCH marks its stream; YNOP leaves flags and marker. -/
def Obligations.SyncInstructions : Prop :=
  ∀ (s : State) (c : CoreNo) (y : BitVec 20) (w : YRest),
    let arg := bitsN y.toNat 15 0
    let fl (t : State) (n : Nat) : Bool := bitN (t.core c).flags n
    let just (n : Nat) : Bool := decide ((s.core c).flagCyc = s.cycle) && bitN (s.core c).flagSet n
    ((w.whole 0 y).issues c s.toDev → Completes (.ynop c y w) s (fun t => (t.core c).flags = (s.core c).flags
        ∧ ((t.core c).stream (w.whole 0 y).exec).epoch = ((s.core c).stream (w.whole 0 y).exec).epoch))
    ∧ ((w.whole 1 y).issues c s.toDev → Completes (.setf c y w) s (fun t => ∀ n, n < 16 → fl t n = (fl s n || bitN arg n)))
    ∧ ((w.whole 2 y).issues c s.toDev → Completes (.waitf c y w) s (fun t =>
        if y.getLsbD 19 then ∀ n, n < 16 → fl t n = (fl s n && (!bitN arg n || just n)) else (t.core c).flags = (s.core c).flags))
    ∧ ((w.whole 3 y).issues c s.toDev → Completes (.epoch c y w) s (fun t => (t.core c).flags = (s.core c).flags
        ∧ ((t.core c).stream (w.whole 3 y).exec).epoch = arg))

/-- The transfer slots (R168–R170): LDQ and STQ give their engine a transfer that starts at the cursor the generator had before
the word, or at BASE with RST; TLOAD and CSLD give the block engine theirs; AGSET writes one field of its generator, BASE
with the cursor. -/
def Obligations.TransferInstructions : Prop :=
  ∀ (s : State) (c : CoreNo) (l : BitVec 60) (w : LRest),
    let k := s.core c
    let gen (n : Nat) : AddrGen := { (k.agen (lAg n)) with cur := if lRst n then (k.agen (lAg n)).base else (k.agen (lAg n)).cur }
    let ld (op : BitVec 4) : Nat := (op ++ l).toNat
    ((StreamWord.a (w.loadWord 1 l)).issues c s.toDev → Completes (.ldq c l w) s (fun t =>
        ∃ x ∈ (t.core c).trans, x.seq = k.tno ∧ x.kind = .load ∧ x.q = lQ (ld 1) ∧ x.agn = lAg (ld 1) ∧ x.ag = gen (ld 1)
          ∧ x.rep = lRep (ld 1) ∧ x.done = 0 ∧ x.cyc = s.cycle ∧ x.pc = k.a.pc))
    ∧ ((StreamWord.a (w.storeWord 1 l)).issues c s.toDev → Completes (.stq c l w) s (fun t =>
        ∃ x ∈ (t.core c).trans, x.kind = .store ∧ x.q = 4 + lSq (ld 1) ∧ x.agn = lAg (ld 1) ∧ x.ag = gen (ld 1)
          ∧ x.rep = lRep (ld 1) ∧ x.done = 0 ∧ x.cyc = s.cycle ∧ x.pc = k.a.pc
          ∧ x.seq = k.tno + (if lOp w.o.toNat = 1 ∨ lOp w.o.toNat = 2 ∨ lOp w.o.toNat = 3 then 1 else 0)))
    ∧ ((StreamWord.a (w.loadWord 2 l)).issues c s.toDev → Completes (.tload c l w) s (fun t =>
        ∃ x ∈ (t.core c).trans, x.seq = k.tno ∧ x.kind = .table ∧ x.lo = cmemBase c + 64 * lAddr (ld 2) ∧ x.hi = x.lo + 4160
          ∧ x.done = 0 ∧ x.cyc = s.cycle ∧ x.pc = k.a.pc))
    ∧ ((StreamWord.a (w.loadWord 3 l)).issues c s.toDev → Completes (.csld c l w) s (fun t =>
        ∃ x ∈ (t.core c).trans, x.seq = k.tno ∧ x.kind = .bank ∧ x.q = 4 * lPlane (ld 3) + lBank (ld 3)
          ∧ x.lo = cmemBase c + 64 * lAddr (ld 3) ∧ x.hi = x.lo + 256 ∧ x.done = 0 ∧ x.cyc = s.cycle ∧ x.pc = k.a.pc))
    ∧ (∀ b : Bool, (StreamWord.a (if b then w.storeWord 4 l else w.loadWord 4 l)).issues c s.toDev → Completes (.agset c b l w) s (fun t =>
        let g := (t.core c).agen (lAg (ld 4))
        let v := lValue (ld 4)
        (lField (ld 4) = 0 → g.base = v ∧ g.cur = v)
        ∧ (lField (ld 4) = 1 → g.lines = bitsN v 47 32 + 1 ∧ g.len = (bitsN v 15 0 + 1) * 64)
        ∧ (lField (ld 4) = 2 → g.stride = signedN v 48)
        ∧ (lField (ld 4) = 3 → g.adv = signedN v 48)))

/-- MRUN puts one operation, and DRAIN one drain, at the back of its issue buffer with the word's matrix slot, its pc and
its cycle (R147, R153). A slot whose bits are all zero does nothing of its own (R144): MNOP leaves both issue buffers, VNOP the vector registers
and every queue, LNOP and SNOP the transfers that their unit would have started. -/
def Obligations.MatrixInstructionsAndNops : Prop :=
  ∀ (s : State) (c : CoreNo),
    let k := s.core c
    (∀ (m : BitVec 124) (w : MRest),
      ((StreamWord.x (w.word 1 m)).issues c s.toDev → Completes (.mrun c m w) s (fun t =>
        (t.core c).ono = k.ono + 1 ∧ (t.core c).drains = k.drains
        ∧ ∃ o, (t.core c).issue = k.issue ++ [o] ∧ o.w = ((1 : BitVec 4) ++ m).toNat ∧ o.seq = k.ono ∧ o.pc = k.x.pc ∧ o.cyc = s.cycle
          ∧ o.t0 = none ∧ o.inj = 0 ∧ o.added = 0))
      ∧ ((StreamWord.x (w.word 2 m)).issues c s.toDev → Completes (.drain c m w) s (fun t =>
        (t.core c).ono = k.ono + 1 ∧ (t.core c).issue = k.issue
        ∧ ∃ x, (t.core c).drains = k.drains ++ [x] ∧ x.w = ((2 : BitVec 4) ++ m).toNat ∧ x.seq = k.ono ∧ x.pc = k.x.pc ∧ x.cyc = s.cycle
          ∧ x.row = 0)))
    ∧ (∀ (m : BitVec 124) (w : MRest), (StreamWord.x (w.word 0 m)).issues c s.toDev → Completes (.mnop c m w) s (fun t =>
        m = 0 ∧ (t.core c).issue = k.issue ∧ (t.core c).drains = k.drains ∧ (t.core c).ono = k.ono))
    ∧ (∀ (v : BitVec 58) (w : VRest), (StreamWord.x (w.word 0 v)).issues c s.toDev → Completes (.vnop c v w) s (fun t =>
        (∀ r n, (t.core c).vread r n = k.vread r n) ∧ (∀ q, (t.core c).queue q = k.queue q)))
    ∧ (∀ (l : BitVec 60) (w : LRest), (StreamWord.a (w.loadWord 0 l)).issues c s.toDev → Completes (.lnop c l w) s (fun t =>
        l = 0 ∧ ∃ new, (t.core c).trans = k.trans ++ new ∧ ∀ x ∈ new, x.kind = .store))
    ∧ (∀ (l : BitVec 60) (w : LRest), (StreamWord.a (w.storeWord 0 l)).issues c s.toDev → Completes (.snop c l w) s (fun t =>
        l = 0 ∧ (t.core c).tno = k.tno + (if lOp w.o.toNat = 1 ∨ lOp w.o.toNat = 2 ∨ lOp w.o.toNat = 3 then 1 else 0)))

/-- What every word that issues leaves alone: all memory, every other core, the core's other stream, its slots, its
operations in flight, its table RAM, its job, every register but the count of words issued (and, for SETF, STRM_FLAG_LOST_CNT and its error bit),
and every unit outside the core. -/
def Obligations.WordFrame : Prop :=
  ∀ (i : Instr) (s : State) (c : CoreNo) (w : StreamWord), i.word = some (c, w) → w.issues c s.toDev →
    Completes i s (fun t =>
      let n := aStrm c (if w.exec then 0x158 else 0x15C)
      let k := t.core c
      let k0 := s.core c
      SameMemory s.toDev t.toDev ∧ SameCoresBut c s.toDev t.toDev ∧ SameUnits s.toDev t.toDev
      ∧ SameRegsBut (if yOp w.y = 1 then [n, aStrm c 0x150, aStrm c 0x10] else [n]) s.toDev t.toDev
      ∧ t.reg n = s.reg n + 1
      ∧ (yOp w.y ≠ 1 → SameInts s.toDev t.toDev)
      ∧ k.stream (!w.exec) = k0.stream (!w.exec) ∧ k.slots = k0.slots ∧ k.flight = k0.flight ∧ k.edges = k0.edges
      ∧ k.table = k0.table ∧ k.banks = k0.banks ∧ k.job = k0.job ∧ k.dec = k0.dec ∧ k.ctx = k0.ctx ∧ t.cycle = s.cycle)

/-- A word that R144 rejects, in a core outside every job: the stream stops FAULTED at that word, CCTL shows HAZARD, the
fault record names unit and argument unless one is held, and nothing else changes. -/
def Obligations.PreciseFaultStopsTheStream : Prop :=
  ∀ (i : Instr) (s : State) (c : CoreNo) (w : StreamWord) (u arg : Nat), i.word = some (c, w) → w.tried c s.toDev →
    w.check c s.toDev = .fault u arg → (s.core c).job = none →
    Completes i s (fun t =>
      (t.core c).stream w.exec = { ((s.core c).stream w.exec) with st := .faulted, wait := none }
      ∧ (t.core c).stream (!w.exec) = (s.core c).stream (!w.exec)
      ∧ t.bit (aCctl c 0x10) 0 = true
      ∧ (s.bit (aCctl c 0x140) 31 = false →
          t.reg (aCctl c 0x140) = BitVec.ofNat 32 (0x80000003 + (if w.exec then 2 ^ 30 else 0) + u * 2 ^ 24)
          ∧ t.reg (aCctl c 0x144) = BitVec.ofNat 32 (((s.core c).stream w.exec).pc % 2 ^ 20)
          ∧ t.reg (aCctl c 0x148) = BitVec.ofNat 32 arg ∧ t.reg (aCctl c 0x14C) = 0)
      ∧ (s.bit (aCctl c 0x140) 31 = true → t.bit (aCctl c 0x140) 29 = true
          ∧ ((s.eventBits (aCctl c 0x140)).getLsbD 31 = false → t.reg (aCctl c 0x148) = s.reg (aCctl c 0x148)))
      ∧ SameMemory s.toDev t.toDev ∧ SameCoresBut c s.toDev t.toDev ∧ SameUnits s.toDev t.toDev
      ∧ SameRegsBut [aCctl c 0x10, aCctl c 0x140, aCctl c 0x144, aCctl c 0x148, aCctl c 0x14C] s.toDev t.toDev
      ∧ (t.core c).vpend = (s.core c).vpend ∧ (t.core c).issue = (s.core c).issue ∧ (t.core c).trans = (s.core c).trans
      ∧ (t.core c).flags = (s.core c).flags ∧ (t.core c).ags = (s.core c).ags ∧ (t.core c).queues = (s.core c).queues)

/-- A word with a slot that cannot issue waits whole: only the cause is kept for the Badger (R143, R188). A word whose stream may not try one in this cycle, or whose core's clock stands, changes nothing (R143, R165, R166). -/
def Obligations.WordsThatDoNotIssue : Prop :=
  (∀ (i : Instr) (s : State) (c : CoreNo) (w : StreamWord) (x : WaitOn), i.word = some (c, w) → w.tried c s.toDev →
      w.check c s.toDev = .wait x →
      Completes i s (fun t =>
        t.core c = (s.core c).setStream w.exec { ((s.core c).stream w.exec) with wait := some x }
        ∧ SameMemory s.toDev t.toDev ∧ SameCoresBut c s.toDev t.toDev ∧ SameUnits s.toDev t.toDev ∧ SameInts s.toDev t.toDev
        ∧ SameRegsBut [] s.toDev t.toDev))
  ∧ (∀ (i : Instr) (s : State) (c : CoreNo) (w : StreamWord), i.word = some (c, w) → ¬ w.tried c s.toDev →
      Completes i s (fun t => t = s))

/-! ## Engines and streams of a core -/

/-- LOAD_ENTRY_PUSH puts the next entry of its engine's transfer at the back of the load queue, with the address it was read
at; from the core's own memory, with no error standing there, it holds the 64 bytes and the poison of that block (R170,
R177). VREG_WRITEBACK lands what is due, so that a read of this cycle finds what it found, and keeps what is not (R160). STORE_WRITE_TIMEOUT ends the wait
of the oldest write without acknowledgement (R171). STORE_BLOCK_WRITE on the core's own memory: the block at the transfer's next address takes the 64 bytes at the front of
the store queue with their poison, every other byte of memory reads as before, and the entry leaves its queue (R170,
R203). No error injection is armed. TABLE_LOAD_DONE: a table whose header passes its checks stands in the table RAM, of a block that another agent wrote since the load issued either contents (R134). BANK_WRITE_APPLY: a held write of
a bank no longer in use stands in the bank's registers (R120). -/
def Obligations.TransfersAndLoads : Prop :=
  (∀ (s : State) (c : CoreNo), s.clockOn = true →
      (∀ (q : Fin 4) (x : Transfer), (s.core c).inReset = false → (s.core c).engNow q s.cycle < 2 → (s.core c).stopping = false →
          s.replayDue c = false → (s.core c).replayNext q s.cycle = none → s.loadReady c q = some x →
          s.accessWait c 0 x.nextAddr true = none →
          Completes (.loadEntryPush c q) s (fun t =>
            ∃ e, (t.core c).queue q = (s.core c).queue q ++ [e] ∧ e.addr = x.nextAddr
              ∧ (∀ off, cmemOf x.nextAddr = some (c.val, off) → s.errs.getD ((cmemBase c + off / 64 * 64) / 64) [] = [] →
                  e.data = cellsAt s.mem (cmemBase c + off / 64 * 64) 64
                  ∧ e.poison = s.poison.contains ((cmemBase c + off / 64 * 64) / 64))
              ∧ (∀ r, r ≠ q.val → (t.core c).queue r = (s.core c).queue r)
              ∧ ((cmemOf x.nextAddr).map (fun p => p.1) = some c.val ∨ x.nextAddr < hbmEnd → SameCoresBut c s.toDev t.toDev)))
      ∧ Completes (.vregWriteback c) s (fun t =>
          (∀ r, (t.core c).vregs.getD r {} = (s.core c).vread r s.cycle ∧ (t.core c).vread r s.cycle = (s.core c).vread r s.cycle)
          ∧ (t.core c).vpend = (s.core c).vpend.filter (fun p => decide (s.cycle < p.due))
          ∧ SameMemory s.toDev t.toDev ∧ SameCoresBut c s.toDev t.toDev ∧ SameRegsBut [] s.toDev t.toDev)
      ∧ (∀ (n pa cyc : Nat) (rest : List (Nat × Nat × Nat)), (s.core c).unacked = (n, pa, cyc) :: rest → cyc + 38000 ≤ s.cycle →
          Completes (.storeWriteTimeout c) s (fun t =>
            (t.core c).unacked = rest
            ∧ (∀ x, (s.core c).tran n = some x → x.berr = false → t.bit (aCctl c 0x10) 2 = true)
            ∧ SameMemory s.toDev t.toDev ∧ SameCoresBut c s.toDev t.toDev)))
  ∧ (∀ (s : State) (c : CoreNo) (sq : Fin 2) (x : Transfer) (e : QEntry) (off : Nat),
      s.clockOn = true → s.storeReady c sq = some (x, e) → s.accessWait c 1 x.nextAddr false = none →
      cmemOf x.nextAddr = some (c.val, off) → s.reg (aCmem c 0x18) = 0 → e.data.length = 64 →
      Completes (.storeBlockWrite c sq) s (fun t =>
        let b := cmemBase c + off / 64 * 64
        (∀ n, n < 64 → t.peek1 (b + n) = e.data.getD n 0)
        ∧ t.peekPoison b = e.poison
        ∧ SameMemoryBut (fun a => b ≤ a ∧ a < b + 64) s.toDev t.toDev
        ∧ (∀ a, a / 64 ≠ b / 64 → t.peekPoison a = s.peekPoison a)
        ∧ (t.core c).queue (4 + sq) = ((s.core c).queue (4 + sq)).drop 1
        ∧ SameCoresBut c s.toDev t.toDev))
  ∧ (∀ (s : State) (c : CoreNo), s.clockOn = true →
      (∀ x, s.blockReady c .table 65 = some x →
          let r := s.readBlocks c x.lo 65
          let q := r.1.tableRead (s.tableWritten x) x r.2.1 r.2.2
          x.buf.length = 4160 → tableOk q.2.1 = true →
          Completes (.tableLoadDone c) s (fun t => (t.core c).table = q.2.1 ∧ (t.core c).tableBad = q.2.2
            ∧ (s.tableWritten x = [] → q.2.1 = r.2.1 ∧ q.2.2 = r.2.2)
            ∧ (∀ i, i < 65 → blockAt q.2.1 i = blockAt r.2.1 i ∨ i ∈ s.tableWritten x ∧ blockAt q.2.1 i = blockAt x.buf i)
            ∧ (t.core c).tran x.seq = none ∧ SameCoresBut c s.toDev t.toDev ∧ (∀ a, t.peek1 a = s.peek1 a)))
      ∧ (∀ (plane : Fin 2) (bank : Fin 4) (b : BankWrite), (s.core c).bankUsed plane bank = false →
          (s.core c).banks.find? (fun y => y.plane == plane.val && y.bank == bank.val) = some b → b.due ≤ s.cycle → b.first + b.vals.length ≤ 64 →
          Completes (.bankWriteApply c plane bank) s (fun t =>
            (∀ j, j < b.vals.length → t.reg (bankReg c plane bank (b.first + j)) = b.vals.getD j 0)
            ∧ SameRegsBut ((List.range b.vals.length).map (fun j => bankReg c plane bank (b.first + j))) s.toDev t.toDev
            ∧ (t.core c).banks = (s.core c).banks.erase b ∧ SameMemory s.toDev t.toDev ∧ SameCoresBut c s.toDev t.toDev)))

/-- STRM_START takes an IDLE or HALTED stream to RUNNING at word 0, or to HALTED when its window is empty, and leaves a
stream in any other state (R189, R198). STREAM_HALTED: a stream past HALT whose units are idle becomes HALTED (R166). -/
def Obligations.StreamsStartAndHalt : Prop :=
  ∀ (s : State) (c : CoreNo),
    (∀ x a, s.serves (aStrm c 0x100) = true → (s.core c).inReset = false →
        Completes (.strmStart c x a) s (fun t =>
          (∀ e : Bool, (if e then x else a) = true → ((s.core c).stream e).st = .idle ∨ ((s.core c).stream e).st = .halted →
              ((t.core c).stream e).pc = 0 ∧ ((t.core c).stream e).st = (if s.windowLen c e = 0 then .halted else .running)
              ∧ ((t.core c).stream e).ctr = ((s.core c).stream e).ctr)
          ∧ (∀ e : Bool, (if e then x else a) = false ∨ (((s.core c).stream e).st ≠ .idle ∧ ((s.core c).stream e).st ≠ .halted) →
              (t.core c).stream e = (s.core c).stream e)
          ∧ (t.core c).flags = (s.core c).flags ∧ SameMemory s.toDev t.toDev ∧ SameCoresBut c s.toDev t.toDev ∧ SameRegsBut [] s.toDev t.toDev))
    ∧ (∀ e, s.clockOn = true → ((s.core c).stream e).st = .running → ((s.core c).stream e).halting = true → (s.core c).unitsIdle e s.cycle = true →
        Completes (.streamHalted c e) s (fun t =>
          ((t.core c).stream e).st = .halted ∧ ((t.core c).stream e).pc = ((s.core c).stream e).pc
          ∧ (t.core c).stream (!e) = (s.core c).stream (!e) ∧ SameMemory s.toDev t.toDev ∧ SameCoresBut c s.toDev t.toDev
          ∧ SameRegsBut [] s.toDev t.toDev))

/-- STRM_FLAG_SET sets the flags of its mask, and counts each that was set already as a lost handshake; STRM_FLAG_CLR clears
those of its mask but flags set in the same cycle (R180–R182). BADGER_REPORT, in a core outside every job: at the threshold both streams that run or have halted become DEADLOCKED, the
count starts again, CCTL shows DEADLOCK and counts it (R187, R188). -/
def Obligations.FlagWritesAndBadger : Prop :=
  (∀ (s : State) (c : CoreNo) (m : BitVec 16),
      (s.serves (aStrm c 0x134) = true → Completes (.strmFlagSet c m) s (fun t =>
          let lost := ((List.range 16).filter (fun n => m.getLsbD n && bitN (s.core c).flags n)).length
          (∀ n, n < 16 → bitN (t.core c).flags n = (bitN (s.core c).flags n || m.getLsbD n))
          ∧ t.reg (aStrm c 0x150) = satAdd (s.reg (aStrm c 0x150)) lost
          ∧ (0 < lost → t.bit (aStrm c 0x10) 0 = true)
          ∧ SameMemory s.toDev t.toDev ∧ SameCoresBut c s.toDev t.toDev ∧ SameRegsBut [aStrm c 0x150, aStrm c 0x10] s.toDev t.toDev))
      ∧ (s.serves (aStrm c 0x138) = true → Completes (.strmFlagClr c m) s (fun t =>
          (∀ n, n < 16 → bitN (t.core c).flags n = (bitN (s.core c).flags n &&
              (!m.getLsbD n || (decide ((s.core c).flagCyc = s.cycle) && bitN (s.core c).flagSet n))))
          ∧ SameMemory s.toDev t.toDev ∧ SameCoresBut c s.toDev t.toDev ∧ SameRegsBut [] s.toDev t.toDev)))
  ∧ (∀ (s : State) (c : CoreNo), s.clockOn = true → s.fld (aCctl c 0x104) 23 0 ≤ (s.core c).badger → s.badgerHeld c = false →
      (s.core c).job = none →
      Completes (.badgerReport c) s (fun t =>
        (∀ e : Bool, ((s.core c).stream e).st = .running ∨ ((s.core c).stream e).st = .halted → ((t.core c).stream e).st = .deadlocked)
        ∧ (t.core c).badger = 0 ∧ t.bit (aCctl c 0x10) 1 = true ∧ t.reg (aCctl c 0x10C) = satAdd (s.reg (aCctl c 0x10C)) 1
        ∧ (s.bit (aCctl c 0x10) 1 = false → t.reg (aCctl c 0x170) = BitVec.ofNat 32 (s.core c).flags)
        ∧ SameMemory s.toDev t.toDev ∧ SameCoresBut c s.toDev t.toDev))

/-- CTX_SAVE shows STOPPING; once every other member of the core's chain has a SAVE request, and at once in a core of no chain, the
streams of every member that has not stopped stop, and no other core's (R191, R192). CTX_SAVE_DONE, when the transfer is done, leaves a STOPPED
stream IDLE and any other in its state (R189) with no flag set, and shows the save done, or UE_MEM where the image has no target (R193). CTX_RESTORE
accepts an image that fits, else answers why not (R194). CTX_RESTORE_DONE, without core memory, ends the command with the header's
pcs and flags in the streams (R195). -/
def Obligations.ContextSwitch : Prop :=
  ∀ (s : State) (c : CoreNo),
    let base := s.addr48 (aCctl c 0x118) (aCctl c 0x11C) 12
    (∀ cm, s.serves (aCctl c 0x110) = true → (s.core c).ctx = none → (s.core c).inReset = false →
        Completes (.ctxSave c cm) s (fun t =>
          (∃ x, (t.core c).ctx = some x ∧ x.save = true ∧ x.cmem = cm ∧ x.start = s.cycle)
          ∧ ((∀ m ∈ s.chainOf c, m ≠ c.val → (s.core m).saving = true) → ∀ m ∈ s.chainOf c,
              m = c.val ∨ (∃ y, (s.core m).ctx = some y ∧ y.stopped = false) → ∀ e : Bool,
              ((t.core m).stream e).st = (if ((s.core m).stream e).st = .running ∨ ((s.core m).stream e).st = .halted then .stopped
                else ((s.core m).stream e).st) ∧ ((t.core m).stream e).pc = ((s.core m).stream e).pc)
          ∧ ((∃ m ∈ s.chainOf c, m ≠ c.val ∧ (s.core m).saving = false) →
              (∀ e : Bool, (t.core c).stream e = (s.core c).stream e) ∧ SameCoresBut c s.toDev t.toDev)
          ∧ (∀ m, m ∉ s.chainOf c → t.core m = s.core m)
          ∧ t.reg (aCctl c 0x114) = 1 ∧ SameMemory s.toDev t.toDev ∧ SameRegsBut [aCctl c 0x114] s.toDev t.toDev))
    ∧ (∀ x, s.clockOn = true → (s.core c).ctx = some x → x.save = true → x.over = true →
        Completes (.ctxSaveDone c) s (fun t =>
          (∀ e : Bool, ((t.core c).stream e).st = (if ((s.core c).stream e).st = .stopped then .idle else ((s.core c).stream e).st))
          ∧ ((t.core c).flags = 0 ∧ (t.core c).ctx = none)
          ∧ t.reg (aCctl c 0x114) = (if hasTarget base && (!x.cmem || hasTarget (s.addr48 (aCctl c 0x120) (aCctl c 0x124) 12)) then 3 else 0x900)))
    ∧ (∀ cm, s.serves (aCctl c 0x110) = true → (s.core c).ctx = none → (s.core c).inReset = false →
        Completes (.ctxRestore c cm) s (fun t =>
          (s.restoreCheck c base = 0 → (∃ x, (t.core c).ctx = some x ∧ x.save = false ∧ x.cmem = cm) ∧ t.reg (aCctl c 0x114) = 4)
          ∧ (s.restoreCheck c base ≠ 0 → t.core c = s.core c
              ∧ t.reg (aCctl c 0x114) = setFld (s.reg (aCctl c 0x114)) 15 8 (s.restoreCheck c base)
              ∧ (s.restoreCheck c base = 3 → t.bit (aCctl c 0x10) 3 = true))
          ∧ SameMemory s.toDev t.toDev ∧ SameCoresBut c s.toDev t.toDev))
    ∧ (∀ x, s.clockOn = true → (s.core c).ctx = some x → x.save = false → x.cmem = false → x.over = true →
        Completes (.ctxRestoreDone c) s (fun t =>
          let h := s.peek base 64
          let word (o : Nat) : Nat := ofBytesLE ((h.drop o).take 4)
          (t.core c).ctx = none ∧ (t.core c).x.pc = word 16 ∧ (t.core c).a.pc = word 20 ∧ (t.core c).flags = word 28 % 65536
          ∧ (t.core c).job = (s.core c).job ∧ t.reg (aCctl c 0x114) = 0 ∧ SameMemory s.toDev t.toDev ∧ SameCoresBut c s.toDev t.toDev))

/-- CMEM_QUANTUM starts a new quantum with every class's slots unused (R208). CMEM_CLEAR_DONE, 8,192 cycles after its start,
leaves the core's 4 MiB zero without poison or error, and every other byte as before (R206). CMEM_SCRUB_STEP moves the
scrubber on by a block, wrapping after the last, and takes single-symbol errors out of the block it read (R205). -/
def Obligations.CoreMemoryUpkeep : Prop :=
  ∀ (s : State) (c : CoreNo), s.clockOn = true →
    ((s.core c).quantum < s.cycle / 64 → Completes (.cmemQuantum c) s (fun t =>
        (t.core c).quantum = s.cycle / 64 ∧ (t.core c).used = [0, 0, 0] ∧ SameMemory s.toDev t.toDev ∧ SameCoresBut c s.toDev t.toDev))
    ∧ (∀ n, (s.core c).clearing = some n → n + 8192 ≤ s.cycle → Completes (.cmemClearDone c) s (fun t =>
        let inside (a : Nat) : Prop := cmemBase c ≤ a ∧ a < cmemBase c + 0x400000
        (∀ a, inside a → t.peek1 a = 0 ∧ t.peekPoison a = false ∧ t.errs.getD (a / 64) [] = [])
        ∧ SameMemoryBut inside s.toDev t.toDev ∧ (t.core c).clearing = none ∧ SameCoresBut c s.toDev t.toDev
        ∧ SameRegsBut [] s.toDev t.toDev))
    ∧ (s.bit (aCmem c 0x108) 31 = true → (s.core c).scrubAt + s.fld (aCmem c 0x108) 15 0 ≤ s.cycle → (s.core c).clearing = none →
        (∀ b ∈ (s.core c).banksNow s.cycle, b ≠ bankOf (64 * (s.core c).scrub)) → ((s.core c).banksNow s.cycle).length < 8 →
        Completes (.cmemScrubStep c) s (fun t =>
          (t.core c).scrub = ((s.core c).scrub + 1) % 65536 ∧ (t.core c).scrubAt = s.cycle
          ∧ (∀ e ∈ t.errs.getD ((cmemBase c + 64 * (s.core c).scrub) / 64) [],
              ((s.errs.getD ((cmemBase c + 64 * (s.core c).scrub) / 64) []).filter (fun x => x.cw == e.cw)).length ≠ 1 ∨ 2 ≤ e.cw)
          ∧ (∀ a, t.peek1 a = s.peek1 a) ∧ SameCoresBut c s.toDev t.toDev))

/-! ## Registers, configuration epochs, fences -/

/-- A register write applies field by field (R12, R490): a live field of CCTL_CTX_LO changes at once; CCTL_HAZ_MODE, shadowed,
changes only its shadow, or sets LATE while its page is armed; a 1 clears a bit of ERR_STAT that no event sets in the same cycle (R13); a quiesce-only field of STRM's
program window is written only while neither stream runs or stands stopped. A write of BAR0 that is neither an aligned dword nor an aligned qword changes nothing; a poisoned one is discarded,
counted and reported (R8, R365). -/
def Obligations.RegisterWrites : Prop :=
  (∀ (s : State) (c : CoreNo) (v : BitVec 64),
      let w : Word := v.setWidth 32
      let at32 (a : Nat) : Instr := .regWrite (BitVec.ofNat 26 a) 4 v false
      (s.serves (aCctl c 0x118) = true → Completes (at32 (aCctl c 0x118)) s (fun t =>
          t.reg (aCctl c 0x118) = (s.reg (aCctl c 0x118) &&& 0xFFF) ||| (w &&& 0xFFFFF000)
          ∧ SameRegsBut [aCctl c 0x118] s.toDev t.toDev ∧ SameCores s.toDev t.toDev ∧ SameMemory s.toDev t.toDev))
      ∧ (s.serves (aCctl c 0x100) = true → s.armedFor (aCctl c 0) = 0 → Completes (at32 (aCctl c 0x100)) s (fun t =>
          t.shad (aCctl c 0x100) = (s.shad (aCctl c 0x100) &&& 0xFFFFFFFC) ||| (w &&& 3)
          ∧ t.reg (aCctl c 0x100) = s.reg (aCctl c 0x100)
          ∧ SameRegsBut [aCctl c 0x100] s.toDev t.toDev ∧ SameCores s.toDev t.toDev ∧ SameMemory s.toDev t.toDev))
      ∧ (s.serves (aCctl c 0x100) = true → s.armedFor (aCctl c 0) ≠ 0 → Completes (at32 (aCctl c 0x100)) s (fun t =>
          t.bit (aCctl c 0x28) 15 = true ∧ SameRegsBut [aCctl c 0x28] s.toDev t.toDev ∧ SameCores s.toDev t.toDev))
      ∧ (s.serves (aStrm c 0x10) = true → Completes (at32 (aStrm c 0x10)) s (fun t =>
          t.reg (aStrm c 0x10) = s.reg (aStrm c 0x10) &&& ~~~ (w &&& 1 &&& ~~~ s.eventBits (aStrm c 0x10))
          ∧ SameRegsBut [aStrm c 0x10] s.toDev t.toDev ∧ SameCores s.toDev t.toDev ∧ SameMemory s.toDev t.toDev))
      ∧ (s.serves (aStrm c 0x118) = true → Completes (at32 (aStrm c 0x118)) s (fun t =>
          t.reg (aStrm c 0x118) = (if (s.core c).active then s.reg (aStrm c 0x118)
            else (s.reg (aStrm c 0x118) &&& 0xFFF00000) ||| (w &&& 0xFFFFF))
          ∧ SameRegsBut [aStrm c 0x118] s.toDev t.toDev ∧ SameCores s.toDev t.toDev ∧ SameMemory s.toDev t.toDev))
      ∧ (s.serves (aCctl c 0x114) = true → Completes (at32 (aCctl c 0x114)) s (fun t =>
          SameRegsBut [] s.toDev t.toDev ∧ SameCores s.toDev t.toDev ∧ SameMemory s.toDev t.toDev)))
  ∧ (∀ (s : State) (a : BitVec 26) (n : Fin 9) (v : BitVec 64),
      (¬ (n.val = 4 ∧ a.toNat % 4 = 0) → ¬ (n.val = 8 ∧ a.toNat % 8 = 0) → Completes (.regWrite a n v false) s (fun t => t = s))
      ∧ Completes (.regWrite a n v true) s (fun t =>
          t.reg (aHif 0x110) = satAdd (s.reg (aHif 0x110)) 1 ∧ t.bit (aHif 0x10) 1 = true
          ∧ SameRegsBut [aHif 0x110, aHif 0x10] s.toDev t.toDev ∧ SameCores s.toDev t.toDev ∧ SameMemory s.toDev t.toDev))

/-- CFG_COMMIT arms a page that is not armed for its epoch, and sets LATE in one that is; with EPOCH 0 it disarms the page,
gives every shadow the value in effect and clears LATE (R425, R426). CORE_EPOCH_APPLY: every page of the core that is armed for the epoch it has reached takes its shadows as the values in
effect, is disarmed, and shows the epoch; a page armed for none or for another keeps its values (R426, R427). PLN_PACK_VALID follows the pack
maps that take effect (R99), and PLN_CHK_FENCE takes the lanes that a CHECKER decision has fenced (R111, R339). -/
def Obligations.PagesArmAndCoreEpochs : Prop :=
  (∀ (s : State) (page : PageNo) (p : Page) (e : BitVec 16), pageOf (pageAddr page) = some p → p.kind.hasHeader = true →
      s.servesPage p = true →
      (e ≠ 0 → Completes (.cfgCommit page e) s (fun t =>
          (s.armedFor (pageAddr page) = 0 → t.armedFor (pageAddr page) = e.toNat
              ∧ t.bit (pageAddr page + 0x28) 15 = s.bit (pageAddr page + 0x28) 15)
          ∧ (s.armedFor (pageAddr page) ≠ 0 → t.armedFor (pageAddr page) = s.armedFor (pageAddr page)
              ∧ t.bit (pageAddr page + 0x28) 15 = true)
          ∧ SameRegsBut [pageAddr page + 0x28] s.toDev t.toDev ∧ SameCores s.toDev t.toDev ∧ SameMemory s.toDev t.toDev))
      ∧ Completes (.cfgCommitDisarm page) s (fun t =>
          t.armedFor (pageAddr page) = 0 ∧ t.bit (pageAddr page + 0x28) 15 = false
          ∧ (∀ a, a / 0x1000 = pageAddr page / 0x1000 → t.shad a = t.reg a)
          ∧ (∀ a, a ≠ pageAddr page + 0x28 → t.reg a = s.reg a)
          ∧ (∀ a, a / 0x1000 ≠ pageAddr page / 0x1000 → t.shad a = s.shad a)
          ∧ SameCores s.toDev t.toDev ∧ SameMemory s.toDev t.toDev))
  ∧ (∀ (s : State) (c : CoreNo) (e : BitVec 16) (b : Nat), s.clockOn = true → e ≠ 0 → (s.core c).reached e.toNat = true →
      b ∈ corePageList c →
      Completes (.coreEpochApply c e) s (fun t =>
        (s.armedFor b = e.toNat → t.armedFor b = 0 ∧ t.fld (b + 0x20) 15 0 = e.toNat
          ∧ ∀ a, a / 0x1000 = b / 0x1000 → a ≠ b + 0x28 → a ≠ b + 0x20 → a ≠ aPln c 0x10C → a ≠ aPln c 0x124 →
              t.reg a = s.shad a ∧ t.shad a = t.reg a)
        ∧ (s.armedFor b ≠ e.toNat → ∀ a, a / 0x1000 = b / 0x1000 → a ≠ aPln c 0x124 → t.reg a = s.reg a ∧ t.shad a = s.shad a)
        ∧ (s.armedFor (aPln c 0) = e.toNat → t.packRegs c ≠ s.packRegs c → t.reg (aPln c 0x10C) = BitVec.ofNat 32 (t.packValid c))
        ∧ (∀ p, p < 2 → ((s.core c).edge p).laneOff = true → t.bit (aPln c 0x124) p = true)
        ∧ SameCores s.toDev t.toDev ∧ SameMemory s.toDev t.toDev))

/-- RST_EPOCH_REQ starts the sequencer with its epoch and scope, or sets EPOCH_BUSY while one is in progress.
DEVICE_EPOCH_APPLY, once every core of the scope has reached the epoch, disarms every device page armed for it, writes RST_EPOCH_CUR,
ends the request and sets EPOCH_DONE; while a core of the scope has not reached it, nothing changes (R428). CORE_FENCE_REQUEST: a core that is active or
spare, with no fence asked for, leaves its job and its fence is on record; FENCE of any other core only shows (R343). CORE_FENCE_APPLY: the first fence that may
take effect, in ascending physical ID, makes its core FENCED_RUN and is off the record; with none that may, nothing changes (R24, R27, R343). -/
def Obligations.DeviceEpochAndFences : Prop :=
  (∀ (s : State),
      (∀ all job (e : BitVec 16), s.serves (aRst 0x118) = true → s.bit (aRst 0x11C) 31 = false →
          Completes (.rstEpochReq all job e) s (fun t =>
            t.bit (aRst 0x11C) 31 = true ∧ t.fld (aRst 0x11C) 15 0 = e.toNat ∧ t.epochJob = (if all then none else some job.val)
            ∧ SameRegsBut [aRst 0x11C] s.toDev t.toDev ∧ SameCores s.toDev t.toDev ∧ SameMemory s.toDev t.toDev))
      ∧ (∀ all job e, s.serves (aRst 0x118) = true → s.bit (aRst 0x11C) 31 = true →
          Completes (.rstEpochReq all job e) s (fun t =>
            t.bit (aRst 0x10) 0 = true ∧ t.epochJob = s.epochJob ∧ SameRegsBut [aRst 0x10] s.toDev t.toDev ∧ SameCores s.toDev t.toDev))
      ∧ (s.clockOn = true → s.bit (aRst 0x11C) 31 = false ∨ (∃ c ∈ s.epochCores, (s.core c).reached (s.fld (aRst 0x11C) 15 0) = false) →
          Completes .deviceEpochApply s (fun t => t = s))
      ∧ (s.clockOn = true → s.bit (aRst 0x11C) 31 = true → (∀ c ∈ s.epochCores, (s.core c).reached (s.fld (aRst 0x11C) 15 0) = true) →
          Completes .deviceEpochApply s (fun t =>
            t.fld (aRst 0x114) 15 0 = s.fld (aRst 0x11C) 15 0 ∧ t.bit (aRst 0x11C) 31 = false ∧ t.bit (aRst 0x11C) 30 = true
            ∧ (s.fld (aRst 0x11C) 15 0 ≠ 0 → ∀ b ∈ devicePages, s.armedFor b = s.fld (aRst 0x11C) 15 0 → t.armedFor b = 0)
            ∧ SameCores s.toDev t.toDev ∧ t.mem = s.mem ∧ t.hostMem = s.hostMem)))
  ∧ (∀ (s : State),
      (∀ c : CoreNo, s.serves (aCctl c 8) = true → s.fpState c < 2 → (∀ f ∈ s.fences, f.phys ≠ c.val) →
          Completes (.coreFenceRequest c) s (fun t =>
            (∃ f, t.fences = s.fences ++ [f] ∧ f.phys = c.val ∧ f.job = (s.core c).job)
            ∧ (t.core c).job = none ∧ t.bit (aCctl c 8) 2 = true ∧ SameCoresBut c s.toDev t.toDev ∧ t.mem = s.mem))
      ∧ (∀ c : CoreNo, s.serves (aCctl c 8) = true → s.fpState c = 2 ∨ s.fpState c = 3 ∨ (∃ f ∈ s.fences, f.phys = c.val) →
          Completes (.coreFenceRequest c) s (fun t =>
            t.fences = s.fences ∧ t.bit (aCctl c 8) 2 = true ∧ SameCores s.toDev t.toDev ∧ SameRegsBut [aCctl c 8] s.toDev t.toDev
            ∧ SameMemory s.toDev t.toDev))
      ∧ (∀ f : FenceReq, s.clockOn = true → s.fenceList.find? s.fenceFree = some f → f.phys < 312 →
          Completes .coreFenceApply s (fun t =>
            t.fpState f.phys = 3 ∧ (∀ g ∈ t.fences, g ∈ s.fences ∧ g.phys ≠ f.phys)))
      ∧ (s.clockOn = true → (∀ f ∈ s.fences, s.fenceFree f = false) → Completes .coreFenceApply s (fun t => t = s)))

/-! ## Mesh -/

/-- A mesh packet that the router delivers, within the REMOTE share, the banks and the cycle's grants and free of errors: a read of n blocks is answered
with their bytes and the poison of any, and takes n slots; a write of a whole block stores it with its poison; a write of part of a block changes
only its bytes and keeps or takes poison; a response ends at its requester. One that it sinks is counted and reported, and
leaves memory as it was; a read is then answered with its length, poisoned and marked refused (R29, R30, R200, R204, R208); that the bytes of that answer
are zeros is the model's choice (log entry 118). -/
def Obligations.MeshPackets : Prop :=
  ∀ (s : State) (c : CoreNo) (job : Option JobNo), s.clockOn = true →
    (∀ b n : Nat, s.delivers c (job.map Fin.val) = true → (∀ i, i < n → s.cmemWait c 2 n (64 * ((b + i) % 65536)) = none) →
        (∀ i, i < n → s.errs.getD ((cmemBase c + 64 * ((b + i) % 65536)) / 64) [] = []) →
        Completes (.meshPacketDeliver c job (.read b n) {}) s (fun t =>
          t.rdata = (List.range n).flatMap (fun i => cellsAt s.mem (cmemBase c + 64 * ((b + i) % 65536)) 64)
          ∧ (t.rpoison = true ↔ ∃ i, i < n ∧ s.poison.contains ((cmemBase c + 64 * ((b + i) % 65536)) / 64) = true)
          ∧ t.rur = false ∧ t.rref = false
          ∧ (t.core c).used = (List.range n).foldl (fun u _ => setAt u 2 (u.getD 2 0 + 1)) (s.core c).used
          ∧ (∀ a, t.peek1 a = s.peek1 a) ∧ SameCoresBut c s.toDev t.toDev))
    ∧ (∀ (b : Fin 65536) (data : List Byte) (p : Bool), s.delivers c (job.map Fin.val) = true → s.cmemWait c 2 1 (64 * b.val) = none →
        data.length = 64 → s.reg (aCmem c 0x18) = 0 →
        Completes (.meshPacketDeliver c job (.write (64 * b.val) data p) {}) s (fun t =>
          let lo := cmemBase c + 64 * b.val
          (∀ n, n < 64 → t.peek1 (lo + n) = data.getD n 0) ∧ t.peekPoison lo = p
          ∧ SameMemoryBut (fun a => lo ≤ a ∧ a < lo + 64) s.toDev t.toDev ∧ SameCoresBut c s.toDev t.toDev))
    ∧ (∀ (off : Fin 0x400000) (data : List Byte) (p : Bool), s.delivers c (job.map Fin.val) = true → s.cmemWait c 2 2 off = none →
        data.length < 64 → meshWriteOk off data = true → s.errs.getD ((cmemBase c + off.val / 64 * 64) / 64) [] = [] →
        Completes (.meshPacketDeliver c job (.write off data p) {}) s (fun t =>
          let lo := cmemBase c + off.val
          (∀ n, n < data.length → t.peek1 (lo + n) = data.getD n 0) ∧ t.peekPoison lo = (s.peekPoison lo || p)
          ∧ SameMemoryBut (fun a => lo ≤ a ∧ a < lo + data.length) s.toDev t.toDev ∧ SameCoresBut c s.toDev t.toDev))
    ∧ (∀ (data : List Byte) (p : Bool), s.delivers c (job.map Fin.val) = true → Completes (.meshPacketDeliver c job (.response data p) {}) s (fun t =>
        t.reg (aNoc (dieOf c) 0x114) = satAdd (s.reg (aNoc (dieOf c) 0x114)) (if p then 1 else 0)
        ∧ SameMemory s.toDev t.toDev ∧ SameCores s.toDev t.toDev ∧ SameRegsBut [aNoc (dieOf c) 0x114] s.toDev t.toDev))
    ∧ (∀ op, s.delivers c (job.map Fin.val) = false → Completes (.meshPacketDeliver c job op {}) s (fun t =>
        t.reg (aNoc (dieOf c) 0x108) = satAdd (s.reg (aNoc (dieOf c) 0x108)) 1 ∧ t.bit (aNoc (dieOf c) 0x10) 2 = true
        ∧ (∀ b n, op = .read b n → t.rdata = List.replicate (64 * n) 0 ∧ t.rpoison = true ∧ t.rref = true)
        ∧ SameMemory s.toDev t.toDev ∧ SameCores s.toDev t.toDev
        ∧ SameRegsBut [aNoc (dieOf c) 0x108, aNoc (dieOf c) 0x114, aNoc (dieOf c) 0x10] s.toDev t.toDev))

/-- REDUCE_PACKET_ARRIVE: a packet of a reduction that is not in use, or from a source outside its rectangle, is dropped and
RED_STRAY is set; any other is buffered under its ID and port (R40, R42). REDUCE_CHUNK_COMBINE: once every expected input of
one chunk is there, the chunk is the next of its ID and the next router has room for the ID, the buffers are free and one packet with their
sums, added in the ports' order, goes to the next router, or at the destination to its core; otherwise the packets wait (R39, R40). -/
def Obligations.MeshReductions : Prop :=
  ∀ (s : State) (c : CoreNo) (i : Fin 16), s.clockOn = true →
    (∀ (port : Fin 5) (src : CoreNo) (p : RedPkt), flag (s.redDst i) 31 = false ∨ s.inRect i src = false →
        Completes (.reducePacketArrive c i port src ⟨p, {}⟩) s (fun t =>
          t.bit (aNoc (dieOf c) 0x10) 3 = true ∧ t.redBuf = s.redBuf ∧ t.redFly = s.redFly ∧ SameMemory s.toDev t.toDev ∧ SameCores s.toDev t.toDev
          ∧ SameRegsBut [aNoc (dieOf c) 0x10] s.toDev t.toDev))
    ∧ (∀ (port : Fin 5) (src : CoreNo) (p : RedPkt), flag (s.redDst i) 31 = true → s.inRect i src = true →
        Tbl.look s.redBuf (redKey c i port) = none → s.redFly.getD (redKey c i port) [] = [] →
        Completes (.reducePacketArrive c i port src ⟨p, {}⟩) s (fun t =>
          Tbl.look t.redBuf (redKey c i port) = some p ∧ (∀ k, k ≠ redKey c i port → Tbl.look t.redBuf k = Tbl.look s.redBuf k)
          ∧ SameMemory s.toDev t.toDev ∧ SameCores s.toDev t.toDev ∧ SameRegsBut [] s.toDev t.toDev))
    ∧ (∀ (h : RedPkt) (rest : List RedPkt), (s.redPorts i c).map (fun p => Tbl.look s.redBuf (redKey c i p)) = (h :: rest).map some →
        (∀ q ∈ rest, q.chunk = h.chunk) →
        let sum : RedPkt := rest.foldl (fun a q => ⟨a.chunk, List.zipWith addF32 a.vals q.vals, a.poison || q.poison⟩) h
        (s.redInOrder c i h.chunk = false ∨ s.redCredit c i = false → Completes (.reduceChunkCombine c i) s (fun t => t = s))
        ∧ (s.redInOrder c i h.chunk = true → s.redCredit c i = true → Completes (.reduceChunkCombine c i) s (fun t =>
          (∀ p ∈ s.redPorts i c, Tbl.look t.redBuf (redKey c i p) = none)
          ∧ (∀ n port, s.redNext i c = some (n, port) →
              t.redFly.getD (redKey n i port) [] = s.redFly.getD (redKey n i port) [] ++ [sum])
          ∧ (s.redNext i c = none → t.redOut.getD (redKey c i 0) [] = s.redOut.getD (redKey c i 0) [] ++ [sum])
          ∧ t.redNo.getD (16 * c.val + i.val) 0 = h.chunk + 1
          ∧ SameMemory s.toDev t.toDev ∧ SameCores s.toDev t.toDev)))

/-! ## Planes and the drain path -/

/-- OP_EDGE_ENTER of an operation whose plane has the leave it needs, and which opens its slots or finds none of them STALE: the operation leaves the
issue buffer, is in flight from this cycle with every row of its preload to come, and holds copies of the slots it writes; each of these is no longer EMPTY, and
one it opens starts at group count 0 (R62, R64, R82, R83, R89, R115). An operation that needs more leave than its plane has waits, and its plane asks for what is
missing, once (R412, R413). -/
def Obligations.OperationsEnterOrAskForLeave : Prop :=
  (∀ (s : State) (c : CoreNo) (p : PlaneNo) (o : Op), s.clockOn = true → (s.core c).entering p = some o → s.mayEnter c p o = true →
      s.leaveNeed c o.w ≤ ((s.core c).edge (mPlane o.w)).tokens → mOpen o.w = true ∨ (∀ key ∈ o.keys, ((s.core c).slot key).stale = false) →
      Completes (.opEdgeEnter c p) s (fun t =>
        (∀ x ∈ (t.core c).issue, x.seq ≠ o.seq)
        ∧ (∃ x ∈ (t.core c).flight, x.seq = o.seq ∧ x.w = o.w ∧ x.t0 = some s.cycle ∧ x.inj = o.inj
            ∧ x.entry = o.keys.map (fun key => (key, (s.core c).slot key))
            ∧ x.preLeft = (if mPre o.w = 0 then 0 else s.rows c (mPlane o.w)))
        ∧ (∀ key ∈ o.keys, ((t.core c).slot key).full = true ∧ (mOpen o.w = true → ((t.core c).slot key).cnt = 0 ∧ ((t.core c).slot key).stale = false))
        ∧ SameMemory s.toDev t.toDev ∧ SameCoresBut c s.toDev t.toDev ∧ SameRegsBut [] s.toDev t.toDev))
  ∧ (∀ (s : State) (c : CoreNo) (p : PlaneNo) (o : Op), s.clockOn = true → (s.core c).entering p = some o → s.mayEnter c p o = true →
      ((s.core c).edge (mPlane o.w)).tokens < s.leaveNeed c o.w → (∀ r ∈ s.leaveQ, ¬ (r.core = c.val ∧ r.plane = mPlane o.w)) →
      Completes (.opEdgeEnter c p) s (fun t =>
        (∃ r, t.leaveQ = s.leaveQ ++ [r] ∧ r.core = c.val ∧ r.plane = mPlane o.w
          ∧ r.tokens = s.leaveNeed c o.w - ((s.core c).edge (mPlane o.w)).tokens ∧ r.tick = s.tick)
        ∧ SameCores s.toDev t.toDev ∧ SameMemory s.toDev t.toDev ∧ SameRegsBut [] s.toDev t.toDev))

/-- SCALE_BLOCK_TAKE of a streamed row-scale block that is there, of the right kind, count and tag: the operation holds its values for
the next group (R124, R126). GROUP_INJECT of a group all of whose entries are there: the operation's next group is the one after, the
group stands injected from this cycle, the edge is busy for its cycles, and on a chain the core east of it gets the group's b-rows once the link
has been passed (R78, R79, R94). -/
def Obligations.ScalesAndGroupsEnter : Prop :=
  ∀ (s : State) (c : CoreNo) (p : PlaneNo), s.clockOn = true →
    (∀ (o o1 : Op) (k1 : Core) (es : List QEntry), (s.core c).injecting p = some o → s.edgeReady c o = true → mRsrc o.w = true → o.rowBlk = none →
        mCsrc o.w ≠ 2 → (s.core c).takeBlock o (mRq o.w) s.cycle = some (k1, o1, es) → blkKind (entryBytes es) = 1 →
        s.rowsUsed c o.w ≤ blkCount (entryBytes es) → blkTag (entryBytes es) = (mTag o.w + o.inj) % 64 →
        Completes (.scaleBlockTake c p) s (fun t =>
          ∃ x ∈ (t.core c).flight, x.seq = o.seq ∧ x.rowBlk = some (blkVals 2 (blkCount (entryBytes es)) es) ∧ x.inj = o.inj))
    ∧ (∀ y : Taken, s.injectPlan c p = some y → chainWrong y = false → chainSkewed y = false →
        Completes (.groupInject c p) s (fun t =>
          (∃ x ∈ (t.core c).flight, x.seq = y.o.seq ∧ x.inj = y.o.inj + 1
            ∧ ∃ g, x.grps = y.o.grps ++ [g] ∧ g.g = y.o.inj ∧ g.cyc = s.cycle ∧ x.edgeEnd = s.cycle + g.len)
          ∧ (∀ q ∈ y.o.planes, s.cycle ≤ ((t.core c).edge q).next)
          ∧ (∀ d, s.forwardsTo c y.o = some d → d ≠ c.val → ∃ g, (t.core d).chainIn = (s.core d).chainIn ++ [g]
              ∧ g.due = s.cycle + linkCycles c d ∧ (y.chain = none → g.lines = y.b.lines ∧ g.g = y.o.inj))
          ∧ (∀ m, m ≠ c.val → s.forwardsTo c y.o ≠ some m → t.core m = s.core m)))

/-- GROUP_BOUNDARY of a group that is not checked adds it and counts it in PLN_UNCHK_CNT (R110). Of a checked group whose check does not fail, with no decision
open, or with one open on another operation or on a later group of its own: each slot of the operation takes its rows of the group and counts it (R62, R68, R337). A failing
check is counted and reported (R109). With no decision open it opens the decision on the first failing key and rolls the operation back to its first K-step (R84, R336),
or, where that would be a fifth rollback, ends as UNRESOLVED with no stream of the core left RUNNING or HALTED (R340, R342). With one open on
another operation the plane waits at the boundary (R340). -/
def Obligations.GroupBoundaries : Prop :=
  ∀ (s : State) (c : CoreNo) (p : PlaneNo) (o : Op) (g : Group) (cells lane : List HwErr), s.clockOn = true →
    s.boundaryPlan c p = some (o, g) →
    let ms := comparisons (mCell o.w) g.g g.rows cells lane
    let adds (t : State) : Prop :=
      (∃ x ∈ (t.core c).flight, x.seq = o.seq ∧ x.added = o.added + 1 ∧ x.grps = o.grps.tail)
        ∧ (∀ key ∈ o.keys, ((t.core c).slot key).full = true ∧ ((t.core c).slot key).cnt = min (((s.core c).slot key).cnt + 1) 0xFFFFF)
        ∧ SameMemory s.toDev t.toDev ∧ SameCoresBut c s.toDev t.toDev
    let reports (t : State) : Prop := t.reg (aPln c 0x110) = satAdd (s.reg (aPln c 0x110)) ms.length ∧ t.bit (aPln c 0x10) 0 = true
    (s.unchecked c o = true → Completes (.groupBoundary c p cells lane) s (fun t =>
        adds t ∧ t.reg (aPln c 0x118) = satAdd (s.reg (aPln c 0x118)) 1 ∧ SameRegsBut [aPln c 0x118] s.toDev t.toDev))
    ∧ (s.unchecked c o = false → ms = [] → (∀ x, (s.core c).dec = some x → x.op ≠ o.seq ∨ (s.core c).nextCount o < x.count) →
        Completes (.groupBoundary c p cells lane) s (fun t => adds t ∧ SameRegsBut [] s.toDev t.toDev))
    ∧ (∀ m rest, s.unchecked c o = false → ms = m :: rest →
        ((s.core c).dec = none → (∀ x ∈ s.allRolled c o.seq, x.rolls < 4) →
          Completes (.groupBoundary c p cells lane) s (fun t =>
            reports t ∧ t.reg (aPln c 0x114) = satAdd (s.reg (aPln c 0x114)) 1
            ∧ (∃ x, (t.core c).dec = some x ∧ x.op = o.seq ∧ x.lrow = m.row ∧ x.half = m.half ∧ x.s0 = m.s ∧ x.c0 = m.c)
            ∧ (∃ x ∈ (t.core c).flight, x.seq = o.seq ∧ x.t0 = none ∧ x.inj = 0 ∧ x.added = 0 ∧ x.grps = [])
            ∧ SameMemory s.toDev t.toDev ∧ (minChain ((s.core c).rolledFrom o.seq) = 0 → SameCoresBut c s.toDev t.toDev)))
        ∧ ((s.core c).dec = none → (∃ x ∈ s.allRolled c o.seq, 4 ≤ x.rolls) →
          Completes (.groupBoundary c p cells lane) s (fun t =>
            (t.core c).dec = none ∧ ∀ e : Bool, ((t.core c).stream e).st ≠ .running ∧ ((t.core c).stream e).st ≠ .halted))
        ∧ (∀ x, (s.core c).dec = some x → x.op ≠ o.seq → Completes (.groupBoundary c p cells lane) s (fun t =>
            reports t ∧ (t.core c).dec = some x ∧ (t.core c).slots = (s.core c).slots ∧ (t.core c).flight = (s.core c).flight
            ∧ (∃ y, ((t.core c).edge (o.planes.headD 0)).held = some y ∧ y.op = o.seq ∧ y.lrow = m.row ∧ y.half = m.half)
            ∧ SameMemory s.toDev t.toDev ∧ SameCoresBut c s.toDev t.toDev)))

/-- DECISION_OPEN: a plane held at a failing boundary opens its decision once none is open (R340). SLOT_PARITY_ERROR outside every
operation poisons the one element (R85). OP_RETIRE takes the operation out of flight and has its RETF flag set in the next
cycle (R83, R86, R152). -/
def Obligations.DecisionsParityRetirement : Prop :=
  ∀ (s : State) (c : CoreNo), s.clockOn = true →
    (∀ (p : PlaneNo) (x : Decision) (o : Op), (s.core c).dec = none → ((s.core c).edge p).held = some x →
        (s.core c).flight.find? (fun y => y.seq == x.op) = some o → (∀ y ∈ s.allRolled c o.seq, y.rolls < 4) →
        Completes (.decisionOpen c p) s (fun t => ∃ y, (t.core c).dec = some y ∧ y.op = x.op ∧ y.count = x.count ∧ y.lrow = x.lrow ∧ y.half = x.half))
    ∧ (∀ (p : SubPlane) (slot : Fin 8) (r : Fin 96) (j : Fin 64), (s.core c).writerOf (8 * p.val + slot.val) = none →
        Completes (.slotParityError c p slot false r j) s (fun t =>
          (((t.core c).slot (8 * p.val + slot.val)).elem r j).poison = true
          ∧ (∀ r' j', j' < 64 → (r' ≠ r.val ∨ j' ≠ j.val) →
              ((t.core c).slot (8 * p.val + slot.val)).elem r' j' = ((s.core c).slot (8 * p.val + slot.val)).elem r' j')
          ∧ (∀ key, key ≠ 8 * p.val + slot.val → (t.core c).slot key = (s.core c).slot key)
          ∧ SameMemory s.toDev t.toDev ∧ SameCoresBut c s.toDev t.toDev ∧ SameRegsBut [] s.toDev t.toDev))
    ∧ (∀ (p : PlaneNo) (o : Op), s.retirePlan c p = some o → Completes (.opRetire c p) s (fun t =>
        (t.core c).flight = (s.core c).flight.filter (fun x => x.seq != o.seq) ∧ (t.core c).slots = (s.core c).slots
        ∧ (t.core c).flagDue = (if mRetfEn o.w then (s.core c).flagDue ++ [(mRetf o.w, s.cycle + 1)] else (s.core c).flagDue)
        ∧ SameMemory s.toDev t.toDev ∧ SameCoresBut c s.toDev t.toDev ∧ SameRegsBut [] s.toDev t.toDev))

/-- PLANE_PAUSE: a plane whose leave is revoked, at its group boundary, stands with its clocks gated and its revoked grants are gone (R88,
R415). PU_FENCE_APPLY: at an epoch, with no operation in flight on the plane, every pending pack-unit fence of the plane shows in
PLN_PACK_FENCE, is no longer pending, and every slot of the plane that is not EMPTY is STALE (R114, R115). -/
def Obligations.PausesAndPackFences : Prop :=
  ∀ (s : State) (c : CoreNo), s.clockOn = true →
    (∀ p : PlaneNo, ((s.core c).edge p).revoked = true → ((s.core c).edge p).paused = false → (s.core c).atBoundary p = true →
        Completes (.planePause c p) s (fun t =>
          ((t.core c).edge p).paused = true ∧ (∀ g ∈ t.grants, ¬ (g.core = c.val ∧ g.plane = p.val ∧ g.leaving = true))
          ∧ (∀ g ∈ s.grants, ¬ (g.core = c.val ∧ g.plane = p.val ∧ g.leaving = true) → g ∈ t.grants)
          ∧ (t.core c).flight = (s.core c).flight ∧ SameMemory s.toDev t.toDev ∧ SameCoresBut c s.toDev t.toDev ∧ SameRegsBut [] s.toDev t.toDev))
    ∧ (∀ p : SubPlane, (∃ x ∈ (s.core c).puPend, x / 16 = p.val) → (s.core c).atAnEpoch = true → (∀ o ∈ (s.core c).flight, p.val ∉ o.planes) →
        Completes (.puFenceApply c p) s (fun t =>
          (t.core c).puPend = (s.core c).puPend.filter (fun x => decide (x / 16 ≠ p.val))
          ∧ (∀ n, n < 8 → ((s.core c).slot (8 * p.val + n)).full = true → ((t.core c).slot (8 * p.val + n)).stale = true)
          ∧ (∀ x ∈ (s.core c).puPend, x / 16 = p.val → x % 16 < 16 → t.bit (aPln c 0x104) (if p.val = 0 then x % 16 else 6 + x % 16) = true)
          ∧ t.bit (aPln c 0x10) 3 = true ∧ SameMemory s.toDev t.toDev ∧ SameCoresBut c s.toDev t.toDev))

/-- DRAIN_START: the oldest issued drain runs from row 0, and its slots are DRAINING (R87, R155). DRAIN_ROW, of a row that is not the
last: its record follows what was held, whole 64-byte entries go to the store queue, the rest is held, and the next row is due
after the row's cycles, two at least for a slot pair (R139, R141). After the last row the slots are to leave DRAINING in the next cycle (R87). -/
def Obligations.DrainsStartAndRun : Prop :=
  ∀ (s : State) (c : CoreNo), s.clockOn = true →
    (∀ x : Drain, s.drainMayStart c = some x → Completes (.drainStart c) s (fun t =>
        (∃ y, (t.core c).drain = some y ∧ y.w = x.w ∧ y.seq = x.seq ∧ y.row = x.row ∧ y.rows = (s.drainRect c x.w).rows)
        ∧ (t.core c).drains = (s.core c).drains.tail ∧ (∀ key ∈ x.keys, ((t.core c).slot key).draining = true)
        ∧ SameMemory s.toDev t.toDev ∧ SameCoresBut c s.toDev t.toDev ∧ SameRegsBut [] s.toDev t.toDev))
    ∧ (∀ x : Drain, s.rowReady c = some x → x.row + 1 ≠ x.rows → Completes (.drainRow c) s (fun t =>
        let bytes := x.buf ++ (s.drainRow1 c x).bytes
        (∃ es, (t.core c).queue (4 + dSq x.w) = (s.core c).queue (4 + dSq x.w) ++ es
          ∧ es.length = bytes.length / 64 ∧ es.flatMap (fun e => e.data) = bytes.take (bytes.length / 64 * 64))
        ∧ (∃ y, (t.core c).drain = some y ∧ y.row = x.row + 1 ∧ y.buf = bytes.drop (bytes.length / 64 * 64) ∧ y.w = x.w)
        ∧ (t.core c).drainNext = s.cycle + max (if dPairs x.w then 2 else 1) ((s.drainRow1 c x).bytes.length / 128)
        ∧ SameMemory s.toDev t.toDev ∧ SameCoresBut c s.toDev t.toDev ∧ SameRegsBut [] s.toDev t.toDev))
    ∧ (∀ x : Drain, s.rowReady c = some x → x.row + 1 = x.rows → Completes (.drainRow c) s (fun t =>
        (t.core c).undrain = x.keys ∧ SameMemory s.toDev t.toDev ∧ SameCoresBut c s.toDev t.toDev ∧ SameRegsBut [] s.toDev t.toDev))


/-! ## Memory -/

/-- SLICE_ACCESS: a read answers with the block's 64 bytes and its poison, also when the slice corrects codewords, which it counts; an uncorrectable
SRAM error poisons the block that the slice holds. A miss whose command meets a parity error twice answers with poison and counts as uncorrectable (R225). A write within one block stores its bytes and its poison. An eviction of a dirty line leaves every byte as it was. A read of
the reduction window is refused with poison (R236, R237, R243). -/
def Obligations.SliceAccesses : Prop :=
  ∀ (s : State) (die : Fin 2) (ce : Fin 17) (ue : Bool), s.clockOn = true →
    (∀ pa, s.servesBlock pa → Completes (.sliceAccess die (.read pa) ce ue) s (fun t =>
        let k := s.hbmKey pa
        t.rdata.length = 64 ∧ (∀ n, n < 64 → t.rdata.getD n 0 = s.peek1 (pa / 64 * 64 + n))
        ∧ t.rpoison = (s.peekPoison pa || (ue && (s.line k).has k))
        ∧ t.reg (aScc (keySlice k) 0x11C) = satAdd (s.reg (aScc (keySlice k) 0x11C)) ce
        ∧ (∀ a, t.peek1 a = s.peek1 a) ∧ SameCores s.toDev t.toDev))
    ∧ (∀ pa, s.servesBlock pa → (s.line (s.hbmKey pa)).has (s.hbmKey pa) = false → Completes (.sliceAccess die (.parity pa) ce ue) s (fun t =>
        let i := keyStack (s.hbmKey pa)
        t.rpoison = true ∧ t.reg (aHmc i 0x108) = satAdd (s.reg (aHmc i 0x108)) 1 ∧ t.bit (aHmc i 0x10) 1 = true
        ∧ SameMemory s.toDev t.toDev ∧ SameCores s.toDev t.toDev))
    ∧ (∀ pa data (p : Bool), s.servesBlock pa → data ≠ [] → pa % 64 + data.length ≤ 64 →
        Completes (.sliceAccess die (.write pa data p) ce ue) s (fun t =>
          let k := s.hbmKey pa
          (∀ n, n < data.length → t.peek1 (pa + n) = data.getD n 0)
          ∧ t.peekPoison pa = (if data.length = 64 then p else s.peekPoison pa || (ue && (s.line k).has k) || p)
          ∧ SameMemoryBut (fun a => pa ≤ a ∧ a < pa + data.length) s.toDev t.toDev ∧ SameCores s.toDev t.toDev))
    ∧ (∀ pa, pa < hbmEnd → s.stackBusy (s.hbmKey pa) = false → s.trxFull (s.hbmKey pa) = false → (s.stack (keyStack (s.hbmKey pa))).held = false →
        s.reg (aHmc (keyStack (s.hbmKey pa)) 0x18) = 0 → (s.line (s.hbmKey pa)).whole → (s.line (s.hbmKey pa)).dirty = true →
        Completes (.sliceAccess die (.evict pa) ce ue) s (fun t =>
          t.line (s.hbmKey pa) = {} ∧ (∀ a, t.peek1 a = s.peek1 a) ∧ t.peekPoison pa = (s.peekPoison pa || (ue && (s.line (s.hbmKey pa)).has (s.hbmKey pa)))
          ∧ (∀ a, s.hbmKey a / 64 ≠ s.hbmKey pa / 64 → t.peekPoison a = s.peekPoison a) ∧ SameCores s.toDev t.toDev))
    ∧ (∀ a, Completes (.sliceAccess die (.readRed a) ce ue) s (fun t =>
        t.rpoison = true ∧ t.bit (aScc (s.refuser die a) 0x10) 2 = true ∧ SameMemory s.toDev t.toDev ∧ SameCores s.toDev t.toDev))

/-- ATOMIC: the naturally aligned operand takes the new value its code gives, the old value is the answer, every other byte is as before;
on a poisoned block nothing is updated and the answer carries poison; a misaligned one, one outside HBM and a reserved code are refused (R241, R243).
POSTED_REDUCTION: each element takes its op's value, poisoned data poisons the block; one outside HBM is refused (R242, R243). The reduction is no whole-block OR on a job's gate line
(its contribution: CommitGate). -/
def Obligations.AtomicsAndReductions : Prop :=
  ∀ (s : State) (die : Fin 2), s.clockOn = true →
    (∀ (code : BitVec 5) (pa : PhysAddr) (a cmp : BitVec 64) (w : Nat), atomicWidth code.toNat = some w → pa.toNat % w = 0 → s.servesBlock pa.toNat →
        let old := ofBytesLE (s.peek pa.toNat w)
        (s.peekPoison pa.toNat = false → Completes (.atomic die code pa a cmp) s (fun t =>
            t.peek pa.toNat w = bytesLE w (atomicNew code.toNat (8 * w) old (a.toNat % 2 ^ (8 * w)) (cmp.toNat % 2 ^ (8 * w)))
            ∧ t.rdata = bytesLE w old ∧ t.rpoison = false
            ∧ SameMemoryBut (fun b => pa.toNat ≤ b ∧ b < pa.toNat + w) s.toDev t.toDev ∧ SameCores s.toDev t.toDev))
        ∧ (s.peekPoison pa.toNat = true → Completes (.atomic die code pa a cmp) s (fun t =>
            t.rpoison = true ∧ (∀ b, t.peek1 b = s.peek1 b) ∧ SameCores s.toDev t.toDev)))
    ∧ (∀ (code : BitVec 5) (pa : PhysAddr) (a cmp : BitVec 64), (∀ w, atomicWidth code.toNat = some w → hbmEnd ≤ pa.toNat ∨ pa.toNat % w ≠ 0) →
        Completes (.atomic die code pa a cmp) s (fun t =>
          t.rpoison = true ∧ t.bit (aScc (s.refuser die pa.toNat) 0x10) 2 = true ∧ SameMemory s.toDev t.toDev ∧ SameCores s.toDev t.toDev))
    ∧ (∀ (op : Fin 8) (pa : BitVec 41) (data : List Byte) (p : Bool), s.servesBlock pa.toNat → data ≠ [] → pa.toNat % 64 + data.length ≤ 64 →
        pa.toNat % redWidth op = 0 → data.length % redWidth op = 0 → ¬ (op.val = 6 ∧ pa.toNat % 128 = 0 ∧ data.length = 64) →
        Completes (.postedReduction die op pa data p) s (fun t =>
          t.peek pa.toNat data.length = redBytes op (s.peek pa.toNat data.length) data ∧ t.peekPoison pa.toNat = (s.peekPoison pa.toNat || p)
          ∧ SameMemoryBut (fun b => pa.toNat ≤ b ∧ b < pa.toNat + data.length) s.toDev t.toDev ∧ SameCores s.toDev t.toDev))
    ∧ (∀ (op : Fin 8) (pa : BitVec 41) (data : List Byte) (p : Bool), hbmEnd ≤ pa.toNat → Completes (.postedReduction die op pa data p) s (fun t =>
        t.bit (aScc (16 * die.val) 0x10) 2 = true ∧ SameMemory s.toDev t.toDev ∧ SameCores s.toDev t.toDev))

/-- HBM_SCRUB_STEP takes one line of each pseudo-channel and moves on: symbol errors that its code corrects are cleared in a line that no slice holds; where the home slice holds the
line, the corrected block stands there, dirty (R234). HMC_CAL_WINDOW at
the due tick opens the window, or skips it in self-refresh; after four deferrals it is forced and counted; HMC_CAL_WINDOW_END closes it; HMC_CAL_DEFER moves the due tick by
HMC_CAL_STEP, at most four times (R245, R246). -/
def Obligations.StacksScrubAndCalibrate : Prop :=
  ∀ (s : State) (i : StackNo),
    let k := s.stack i
    (s.clockOn = true → s.bit (aHmc i 0x134) 31 = true → k.window = false → k.held = false → k.selfRefresh = false →
      k.scrubAt + 64 * s.fld (aHmc i 0x134) 15 0 ≤ s.cycle →
      Completes (.hbmScrubStep i) s (fun t =>
        t.stack i = { k with scrub := (k.scrub + 1) % 12582912, scrubAt := s.cycle }
        ∧ (∀ pc h, pc < 64 → h < 2 →
            let b := (64 * i.val + pc) * 0x60000000 + 128 * k.scrub + 64 * h
            let here := (Tbl.look s.cache (b / 128)).isSome
            t.errs.getD (b / 64) [] = (if here then s.errs.getD (b / 64) []
              else (s.errs.getD (b / 64) []).filter (fun e => (s.blockReads b).all (fun r => match r.2 with
                | .corrected _ _ => r.1 != e.cw
                | _ => true)))
            ∧ (here = true → (s.blockReads b).any (fun r => match r.2 with
                | .corrected _ _ => true
                | _ => false) = true → (t.line b).has b = true ∧ (t.line b).dirty = true))
        ∧ (∀ a, hbmEnd ≤ a ∨ (Tbl.look s.cache (s.hbmKey a / 128)).isNone = true ∨ (s.line (s.hbmKey a)).has (s.hbmKey a) = true → t.peek1 a = s.peek1 a)
        ∧ SameCores s.toDev t.toDev))
    ∧ (∀ pass (temp : BitVec 8) (odecc : BitVec 32), s.pw.railHold = false → (s.stack i).trained = true → (s.stack i).held = false → (s.stack i).window = false →
        (s.stack i).due ≤ s.tick → s.fw.stacksDue.contains i.val = false →
        Completes (.hmcCalWindow i pass temp odecc) s (fun t =>
          let due := (s.stack i).orig + max 1 (s.fld (aMap 0x100) 23 0)
          (t.stack i).due = due ∧ (t.stack i).orig = due ∧ (t.stack i).defers = 0 ∧ t.reg (aHmc i 0x124) = BitVec.ofNat 32 due
          ∧ (t.stack i).window = !(s.stack i).selfRefresh
          ∧ ((s.stack i).selfRefresh = false → (t.stack i).temp = temp.toNat ∧ (t.stack i).held = !pass
              ∧ t.reg (aHmc i 0x11C) = satAdd (s.reg (aHmc i 0x11C)) odecc.toNat
              ∧ t.reg (aHmc i 0x130) = satAdd (s.reg (aHmc i 0x130)) (if (s.stack i).defers = 4 then 1 else 0))
          ∧ SameMemory s.toDev t.toDev ∧ SameCores s.toDev t.toDev))
    ∧ (s.pw.railHold = false → Completes (.hmcCalWindowEnd i) s (fun t =>
        t.stack i = { (s.stack i) with window := false } ∧ t.bit (aHmc i 0x100) 28 = false ∧ (∀ n, n ≠ i.val → t.stack n = s.stack n)
        ∧ SameMemory s.toDev t.toDev ∧ SameCores s.toDev t.toDev))
    ∧ (s.serves (aHmc i 0x128) = true → (s.stack i).trained = true → s.tick < (s.stack i).due → (s.stack i).window = false →
        ((s.stack i).defers < 4 → Completes (.hmcCalDefer i) s (fun t =>
            t.stack i = { (s.stack i) with defers := (s.stack i).defers + 1, due := (s.stack i).due + s.fld (aMap 0x104) 15 0 }
            ∧ t.reg (aHmc i 0x12C) = BitVec.ofNat 32 ((s.stack i).defers + 1) ∧ (∀ n, n ≠ i.val → t.stack n = s.stack n)
            ∧ SameMemory s.toDev t.toDev ∧ SameCores s.toDev t.toDev))
        ∧ (4 ≤ (s.stack i).defers → Completes (.hmcCalDefer i) s (fun t => t = s)))

/-! ## DMA -/

/-- The channels' rings and states: a doorbell, or POLL's end, makes a waiting channel read again; a doorbell in another state is kept in DB_PEND; a descriptor read with OWN = 1
starts, one with OWN = 0 sends the channel to WAIT, a failed ring read to ERROR; EN and DISABLE move it as the table of R266 says; DISABLE drops every descriptor; COAL_TIME ticks after the oldest
pending completion the message is sent (R252, R264–R267). -/
def Obligations.DmaChannelStates : Prop :=
  ∀ (s : State) (ch : ChanNo),
    let k := s.chan ch
    (s.serves (aDmaC ch 0x18) = true → Completes (.dmaChDoorbell ch) s (fun t =>
        t.chan ch = (if k.st = .wait then { k with st := .active } else { k with dbPend := true })
        ∧ SameChansBut ch s.toDev t.toDev ∧ SameCores s.toDev t.toDev ∧ SameMemory s.toDev t.toDev ∧ SameRegsBut [] s.toDev t.toDev))
    ∧ (s.clockOn = true → k.st = .wait → s.fld (aDmaC ch 0) 23 16 ≠ 0 → k.polled + 1024 * s.fld (aDmaC ch 0) 23 16 ≤ s.cycle →
        Completes (.dmaPollExpire ch) s (fun t => t.chan ch = { k with st := .active } ∧ SameChansBut ch s.toDev t.toDev
          ∧ SameCores s.toDev t.toDev ∧ SameMemory s.toDev t.toDev ∧ SameRegsBut [] s.toDev t.toDev))
    ∧ (∀ fail, s.clockOn = true → s.dmaMayFetch ch = true → s.dmaRingWait ch = none →
        let bytes := (s.dmaRingRead ch).2.1
        let poison := (s.dmaRingRead ch).2.2.1
        let bad := (s.dmaRingRead ch).2.2.2 || (fail && s.dmaRingHost ch)
        (bad = false → poison = false → dmaOwn (ofBytesLE bytes) = true → Completes (.dmaDescFetch ch fail) s (fun t =>
            (t.chan ch).st = .active ∧ (t.chan ch).fetch = (if k.fetch + 1 = s.dmaSize ch then 0 else k.fetch + 1)
            ∧ (t.chan ch).descs = k.descs ++ [if dmaRefused (ofBytesLE bytes) then
                { idx := k.fetch, bytes := bytes, status := 0x0B, reason := 3, ended := true } else { idx := k.fetch, bytes := bytes }]
            ∧ SameChansBut ch s.toDev t.toDev))
        ∧ (bad = false → poison = false → dmaOwn (ofBytesLE bytes) = false → k.dbPend = false → Completes (.dmaDescFetch ch fail) s (fun t =>
            (t.chan ch).st = .wait ∧ (t.chan ch).descs = k.descs ∧ (t.chan ch).fetch = k.fetch ∧ (t.chan ch).polled = s.cycle ∧ SameChansBut ch s.toDev t.toDev))
        ∧ (bad = true ∨ poison = true → Completes (.dmaDescFetch ch fail) s (fun t =>
            (t.chan ch).st = .error ∧ (t.chan ch).errCode = (if bad then 0x0B else 0x01) ∧ (t.chan ch).errIdx = k.fetch
            ∧ (t.chan ch).descs = k.descs ∧ t.bit (dmaPage ch + 0x10) 1 = true ∧ SameChansBut ch s.toDev t.toDev)))
    ∧ (s.clockOn = true → k.oldest + s.fld (aDmaC ch 0x20) 31 16 ≤ s.tick → s.bit (aDmaC ch 0x1C) 31 = true → 0 < k.pend →
        Completes (.dmaCoalTimeout ch) s (fun t =>
          t.chan ch = { k with pend := 0 } ∧ (s.msixEn = true → flag (s.msix.getD (4 * s.fld (aDmaC ch 0x1C) 10 0 + 3) 1) 0 = false →
              s.cb.up = true → s.cb.bme = true → t.sent = s.fld (aDmaC ch 0x1C) 10 0 :: s.sent)
          ∧ SameChansBut ch s.toDev t.toDev ∧ SameCores s.toDev t.toDev ∧ SameMemory s.toDev t.toDev ∧ SameRegsBut [] s.toDev t.toDev))
    ∧ (∀ en, s.serves (aDmaC ch 0) = true → Completes (.dmaChEn ch en) s (fun t =>
        t.bit (aDmaC ch 0) 0 = en
        ∧ (en = true → t.chan ch = (if k.st = .idle then { k with st := .active, fetch := s.fld (aDmaC ch 0x14) 15 0 } else k))
        ∧ (en = false → k.st = .active ∨ k.st = .wait → (t.chan ch).st = (if k.descs = [] then .idle else k.st))
        ∧ (t.chan ch).descs = k.descs ∧ SameChansBut ch s.toDev t.toDev ∧ SameCores s.toDev t.toDev ∧ SameMemory s.toDev t.toDev
        ∧ SameRegsBut [aDmaC ch 0] s.toDev t.toDev))
    ∧ (s.serves (aDmaC ch 0) = true → Completes (.dmaChDisable ch true) s (fun t => t.bit (aDmaC ch 0) 1 = true
        ∧ (k.st ≠ .disabled → (t.chan ch).st = .disabled ∧ (t.chan ch).descs = [] ∧ (t.chan ch).pend = 0 ∧ (t.chan ch).dbPend = false)))
    ∧ (s.serves (aDmaC ch 0) = true → Completes (.dmaChDisable ch false) s (fun t =>
        t.bit (aDmaC ch 0) 1 = false ∧ t.chan ch = (if k.st = .disabled then { k with st := .idle } else k)
        ∧ SameChansBut ch s.toDev t.toDev ∧ SameCores s.toDev t.toDev ∧ SameMemory s.toDev t.toDev ∧ SameRegsBut [aDmaC ch 0] s.toDev t.toDev))

/-- DMA_DATA_MOVE within HBM, source and destination apart: the next piece of the stream stands at its destination with the source's poison, and every other byte is as before (R256, R258, R261).
DMA_XFER_FAIL and DMA_WRITE_TIMEOUT end a descriptor with STATUS 0x0B and their REASON; no byte changes but, on one side's overlap of source and destination, those
that are not defined (R257, R260). DMA_WRITEBACK of a ring in HBM writes bytes 48–63 of the oldest
descriptor, sets its flags, and advances HEAD (R258, R259). -/
def Obligations.DmaMovesData : Prop :=
  ∀ (s : State) (ch : ChanNo), s.clockOn = true →
    (∀ (j : Fin 4) (e : DmaDesc), (s.chan ch).mayMove j = some e → dmaSrcHost e.w = false → dmaDstHost e.w = false → s.bit (dmaPage ch + 0x18) 0 = false →
        s.servesBlock (dmaSrcAt e.w e.moved).1 → s.servesBlock (dmaDstAt e.w e.moved).1 →
        (∀ m, m < dmaTotal e.w → dmaOverlap e.w (dmaDstAt e.w m).1 = false) →
        (∀ m, m < dmaPiece e.w e.moved → dmaOverlap e.w ((dmaDstAt e.w e.moved).1 + m) = false) →
        Completes (.dmaDataMove ch j) s (fun t =>
          let src := (dmaSrcAt e.w e.moved).1
          let dst := (dmaDstAt e.w e.moved).1
          let n := dmaPiece e.w e.moved
          (∀ m, m < n → t.peek1 (dst + m) = s.peek1 (src + m))
          ∧ t.peekPoison dst = ((decide (n < 64) && s.peekPoison dst) || s.peekPoison src)
          ∧ (∃ e1, (t.chan ch).descs[j.val]? = some e1 ∧ e1.moved = e.moved + n ∧ e1.poison = (e.poison || s.peekPoison src) ∧ e1.ended = false ∧ e1.bytes = e.bytes)
          ∧ SameMemoryBut (fun a => dst ≤ a ∧ a < dst + n) s.toDev t.toDev ∧ SameChansBut ch s.toDev t.toDev ∧ SameCores s.toDev t.toDev))
    ∧ (∀ (j : Fin 4) (write : Bool) (e : DmaDesc), (s.chan ch).mayMove j = some e → (if write then dmaDstHost e.w else dmaSrcHost e.w) = true →
        Completes (.dmaXferFail ch j write) s (fun t =>
          (t.chan ch).descs[j.val]? = some { e with status := 0x0B, reason := (if write then 2 else 1), ended := true, unacked := none }
          ∧ t.reg (aHif 0x118) = (if write then s.reg (aHif 0x118) else satAdd (s.reg (aHif 0x118)) 1)
          ∧ (∀ a, t.peek1 a = s.peek1 a) ∧ (∀ a, t.peekPoison a = s.peekPoison a)
          ∧ (∀ a, ¬ (dmaOverlap e.w a = true ∧ ∃ m, m < dmaTotal e.w ∧ (dmaDstAt e.w m).1 = a) → cellAt t.hostMem a = cellAt s.hostMem a)
          ∧ SameChansBut ch s.toDev t.toDev ∧ SameCores s.toDev t.toDev
          ∧ SameRegsBut (if write then [] else [aHif 0x118, aHif 0x10]) s.toDev t.toDev))
    ∧ (∀ (j : Fin 4) (e : DmaDesc) (c : Nat), (s.chan ch).descs[j.val]? = some e → e.unacked = some c → c + 190000 ≤ s.cycle →
        Completes (.dmaWriteTimeout ch j) s (fun t =>
          (t.chan ch).descs[j.val]? = some { e with status := 0x0B, reason := 4, ended := true, unacked := none }
          ∧ SameChansBut ch s.toDev t.toDev ∧ SameCores s.toDev t.toDev
          ∧ ((∀ m, m < dmaTotal e.w → dmaOverlap e.w (dmaDstAt e.w m).1 = false) → SameMemory s.toDev t.toDev ∧ SameRegsBut [] s.toDev t.toDev)))
    ∧ (∀ (e : DmaDesc) (rest : List DmaDesc), (s.chan ch).descs = e :: rest → (s.chan ch).st ≠ .disabled → e.unacked = none → e.dropped = false → e.wb = false → s.ownsHeld ch e.idx = false →
        (e.ended = true ∨ dmaTotal e.w ≤ e.moved) → e.status ≠ 0x12 → s.dmaRingHost ch = false → s.servesBlock (s.dmaRingAt ch e.idx) → e.idx < s.dmaSize ch →
        Completes (.dmaWriteback ch) s (fun t =>
          let st := if e.status = 0 ∧ e.poison = true then 0x01 else e.status
          let at48 := s.dmaRingAt ch e.idx + 48
          t.peek at48 16 = s.dmaTrailer ch { e with status := st }
          ∧ (t.chan ch).descs = rest ∧ t.fld (aDmaC ch 0x14) 15 0 = (if e.idx + 1 = s.dmaSize ch then 0 else e.idx + 1)
          ∧ (∀ c n, n < 16 → bitN (t.core c).flags n = (bitN (s.core c).flags n || (dmaNotify e.w && decide (c = dmaNcore e.w) && decide (c ≤ 311)
              && s.delivers c (some (s.dmaJob ch)) && bitN (dmaNflags e.w) n)))
          ∧ SameMemoryBut (fun a => at48 ≤ a ∧ a < at48 + 16) s.toDev t.toDev ∧ SameChansBut ch s.toDev t.toDev))

/-! ## Sloer fabric -/

/-- The send rings: a doorbell, or POLL's end, makes a waiting ring read the descriptor at HEAD, which it starts when OWN = 1; EN = 0 lets a started descriptor finish and
returns any other ring to IDLE; FAB_MSG_RELEASE frees a lost slot; COAL_TIME ticks after the oldest record the ring reports; FAB_SELF takes board and device on a quiet page and goes to every accepted peer (R276, R291, R296, R298, R307, R462).
A descriptor that cannot be read puts the ring into ERROR (log entry 62). -/
def Obligations.SendRings : Prop :=
  ∀ (s : State) (n : JobNo),
    let r := s.ring n
    (∀ i : Instr, (i = .fabSqDoorbell n ∧ s.serves (aFabSq n 0x10) = true) ∨ (i = .fabSqPollExpire n ∧ s.clockOn = true ∧ s.ready = true
          ∧ s.fld (aFabSq n 0x14) 23 16 ≠ 0 ∧ r.polled + 64 * s.fld (aFabSq n 0x14) 23 16 ≤ s.cycle) →
        r.st = .wait → s.bit (aFabSq n 0x14) 31 = true →
        let g := (s.devRead 0 (some n) (s.ringAt n)).2
        Completes i s (fun t =>
          t.ring n = (let r1 : SendRing := { r with started := false, off := 0, send := none }
            if g.refused then { r1 with st := .error, desc := none, err := 0x0B }
            else if g.poison then { r1 with st := .error, desc := none, err := 0x01 }
            else if bitN (ofBytesLE g.data) 511 then { r1 with st := .active, desc := some (ofBytesLE g.data) }
            else { r1 with st := .wait, desc := none, polled := s.cycle })
          ∧ t.reg (aFabSq n 0x18) = BitVec.ofNat 32 (t.ring n).stat ∧ t.fab.out = s.fab.out ∧ t.fab.tags = s.fab.tags))
    ∧ (s.serves (aFabSq n 0x14) = true → Completes (.fabSqDisable n) s (fun t =>
        t.bit (aFabSq n 0x14) 31 = false
        ∧ t.ring n = (if r.st = .active ∧ r.started = true then r
            else { r with st := .idle, desc := none, off := 0, send := none, started := false, err := 0 })
        ∧ SameRegsBut [aFabSq n 0x14, aFabSq n 0x18] s.toDev t.toDev ∧ SameCores s.toDev t.toDev ∧ SameMemory s.toDev t.toDev))
    ∧ (∀ (slot : Fin 16) (rank : BitVec 16), s.serves (aFab 0x140) = true → Completes (.fabMsgRelease n slot rank) s (fun t =>
        t.fab = { s.fab with lost := s.fab.lost.filter (fun x => x != (n.val, rank.toNat, slot.val)) }
        ∧ SameRegsBut [] s.toDev t.toDev ∧ SameCores s.toDev t.toDev ∧ SameMemory s.toDev t.toDev))
    ∧ (s.clockOn = true → s.ready = true → s.fld (aFab 0x144) 15 0 ≠ 0 → (s.cq n).oldest + s.fld (aFab 0x144) 15 0 ≤ s.tick →
        s.bit (aFabJ n 0x10) 31 = true → 0 < (s.cq n).pend →
        Completes (.fabCqCoalTimeout n) s (fun t =>
          t.cq n = { (s.cq n) with pend := 0 }
          ∧ (s.msixEn = true → flag (s.msix.getD (4 * s.fld (aFabJ n 0x10) 26 16 + 3) 1) 0 = false → s.cb.up = true → s.cb.bme = true →
              t.sent = s.fld (aFabJ n 0x10) 26 16 :: s.sent)
          ∧ SameRegsBut [] s.toDev t.toDev ∧ SameCores s.toDev t.toDev ∧ SameMemory s.toDev t.toDev))
    ∧ (∀ v : Word, s.serves (aFab 0x100) = true → (∀ p, pageOf (aFab 0x100) = some p → s.quiet p (aFab 0) 0x100 = true) →
        Completes (.fabSelfWrite v) s (fun t =>
          t.fld (aFab 0x100) 31 16 = fld v 31 16
          ∧ (∀ q ∈ s.fw.peers, (s.port q).up = true → ∃ o ∈ t.fab.out, o.ports = [q] ∧ o.pkt.type = 8 ∧ o.pkt.cls = 5 ∧ o.pkt.data = bytesLE 4 (t.reg (aFab 0x100)).toNat)
          ∧ (s.fw.peers = [] → (∀ q, q < 24 → (s.port q).up = false ∨ s.bit (aSlp q 0x108) 31 = false) →
              t.fab = s.fab ∧ SameRegsBut [aFab 0x100] s.toDev t.toDev ∧ SameCores s.toDev t.toDev ∧ SameMemory s.toDev t.toDev)))

/-- The next packet of a PUT, GET or AMO descriptor, or of Squirrel's oldest send, goes to the outputs: cut at 4 KiB blocks of the remote address, with its OFFSET, the last one of a message marked LAST; a PUT
carries the bytes read from HBM, an AMO its operand and compare value (R281, R282, R291, R294). FAB_SEND_COL takes the next chunk of its data into
its own input (R300). -/
def Obligations.RequestsAreCut : Prop :=
  ∀ (s : State) (n : JobNo), s.clockOn = true → s.ready = true →
    (∀ (kind w : Nat) (r : Route), kind < 3 → s.ringDesc n kind = some w → s.route n (sdRank w) = some r →
        ((s.ring n).started = false ∧ s.sendStatus n w = 0 ∧ (kind = 0 → s.slotBusy n (sdRank w) (sdMsg w % 16) = false)
          ∨ (s.ring n).started = true ∧ sdKind w = kind ∧ ∃ i x, (s.ring n).send = some i ∧ Tbl.look s.fab.sends i = some x ∧ x.cut = false) →
        let off := (s.ring n).off
        let len := pieceLen (sdRemote w) off (sdLen w)
        let base : Pkt := { job := n, src := s.selfRank n, dst := sdRank w, board := r.board, dev := r.dev, via := r.via }
        (kind = 0 → s.servesRange (sdLocal w + off) len → (∀ i, i < len → s.peekPoison (sdLocal w + off + i) = false) →
            Completes (.fabSendPut (some n)) s (fun t =>
              (∃ o, t.fab.out = s.fab.out ++ [o] ∧ o.ports = r.ports ∧ o.bytes = len ∧ o.low = false
                ∧ o.pkt = { base with type := 0, last := decide (sdLen w ≤ off + len), op := b2n (sdNotify w) * 16, coll := sdColl w, len := len, msg := sdMsg w, off := off, addr := (sdRemote w + off) % 2 ^ 48, data := s.peek (sdLocal w + off) len })
              ∧ (t.ring n).off = off + len ∧ (t.ring n).started = true ∧ (∀ a, t.peek1 a = s.peek1 a) ∧ SameCores s.toDev t.toDev))
        ∧ (kind = 1 → Completes (.fabSendGet (some n)) s (fun t =>
              (∃ o, t.fab.out = s.fab.out ++ [o] ∧ o.ports = r.ports ∧ o.bytes = len ∧ o.low = false ∧ o.land_ = sdLocal w + off
                ∧ o.pkt = { base with type := 1, len := len, off := off, addr := (sdRemote w + off) % 2 ^ 48 })
              ∧ (t.ring n).off = off + len ∧ (t.ring n).started = true ∧ SameMemory s.toDev t.toDev ∧ SameCores s.toDev t.toDev))
        ∧ (kind = 2 → Completes (.fabSendAmo n) s (fun t =>
              (∃ o, t.fab.out = s.fab.out ++ [o] ∧ o.ports = r.ports ∧ o.bytes = 16 ∧ o.low = false ∧ o.land_ = sdLocal w
                ∧ o.pkt = { base with type := 4, op := sdOp w, len := 16, addr := sdRemote w % 2 ^ 48, data := bytesLE 8 (sdOperand w) ++ bytesLE 8 (sdCompare w) })
              ∧ (t.ring n).started = true ∧ SameMemory s.toDev t.toDev ∧ SameCores s.toDev t.toDev)))
    ∧ (∀ (h : HwSend) (rest : List HwSend) (r : Route) (slot : Nat), s.hwSends = h :: rest → h.poison = false → h.send = none →
        s.route h.job h.rank = some r → s.freeSlot h.job h.rank = some slot →
        Completes (if h.get.isSome then .fabSendGet none else .fabSendPut none) s (fun t =>
          (∃ o, t.fab.out = s.fab.out ++ [o] ∧ o.ports = r.ports ∧ o.pkt.msg = slot ∧ o.pkt.dst = h.rank ∧ o.pkt.job = h.job
            ∧ o.bytes = pieceLen h.dst h.off h.len ∧ (h.get = none → o.pkt.type = 0 ∧ o.pkt.data = (h.data.drop h.off).take o.bytes)
            ∧ (∀ x, h.get = some x → o.pkt.type = 1 ∧ o.land_ = x.1 + h.off)
            ∧ (h.len ≤ o.bytes → t.hwSends = rest))
          ∧ SameMemory s.toDev t.toDev ∧ SameCores s.toDev t.toDev))
    ∧ (∀ (gate : Bool) (c : Nat) (k : Col) (w : Nat), s.colOf n gate = some (c, k, w) → Tbl.look s.fab.cols c = none → k.mode < 2 → k.len ≠ 0 →
        (if gate then s.treeOk c n = true else s.sendStatus n w = 0 ∧ (s.ring n).started = false) →
        (s.fab.chunks.filter (fun x => x.coll == c && x.input == 10)).length < 8 →
        s.servesRange k.src (min 4096 k.len) → (∀ i, i < min 4096 k.len → s.peekPoison (k.src + i) = false) →
        Completes (.fabSendCol n gate) s (fun t =>
          t.fab.chunks = s.fab.chunks ++ [⟨c, 10, 0, k.op, n.val, s.peek k.src (min 4096 k.len), false⟩]
          ∧ Tbl.look t.fab.cols c = some { k with off := min 4096 k.len } ∧ (∀ a, t.peek1 a = s.peek1 a) ∧ SameCores s.toDev t.toDev))

/-- FAB_PACKET_SEND: the packet that the port grants leaves with the next LSEQ, is kept for replay, takes its flits of credit; a request takes the lowest free
tag, a chunk of a collective a slot credit; a packet of the replay buffer goes first; INJ_UE makes what leaves uncorrectable (R283, R285–R287, R301, R306). FAB_TAG_TIMEOUT holds the tag back for 8 × FAB_TAG_TMO and ends its send with LINK_DOWN (R297, R298). -/
def Obligations.PacketsLeaveAndTagsEnd : Prop :=
  ∀ (s : State), s.clockOn = true → s.ready = true →
    (∀ (p : PortNo) (slot : Bool) (cls i : Nat) (o : OutPkt) (x tag : Nat), s.usable p = true → (s.port p).again = [] → s.txGrant p slot = some (cls, i, o) →
        o.send = some x → s.freeTag = some tag → o.pkt.cls < 6 → o.pkt.type ≠ 6 → o.pkt.type ≠ 7 →
        Completes (.fabPacketSend p slot) s (fun t =>
          (∃ tx, (t.port p).tx = some tx ∧ tx.pkt = { o.pkt with tag := tag } ∧ tx.lseq = (s.port p).txSeq ∧ tx.ack = (s.port p).rxSeq
            ∧ tx.ue = s.bit (aSlp p 0x18) 0 ∧ (t.port p).replay = (s.port p).replay ++ [{ tx with ue := false }])
          ∧ (t.port p).txSeq = ((s.port p).txSeq + 1) % 4096
          ∧ (t.port p).credits = setAt (s.port p).credits o.pkt.cls ((s.port p).credits.getD o.pkt.cls 0 - o.pkt.flits)
          ∧ Tbl.look t.fab.tags tag = some { job := o.pkt.job, dst := o.pkt.dst, type := o.pkt.type, bytes := o.bytes, land_ := o.land_, send := x, tick := s.tick }
          ∧ t.fab.out = s.fab.out.eraseIdx i ∧ SameCores s.toDev t.toDev))
    ∧ (∀ (p : PortNo) (slot : Bool) (cls i : Nat) (o : OutPkt), s.usable p = true → (s.port p).again = [] → s.txGrant p slot = some (cls, i, o) →
        o.send = none → o.pkt.cls < 6 →
        Completes (.fabPacketSend p slot) s (fun t =>
          (∃ tx, (t.port p).tx = some tx ∧ tx.pkt = o.pkt ∧ tx.lseq = (s.port p).txSeq ∧ (t.port p).replay = (s.port p).replay ++ [{ tx with ue := false }])
          ∧ (t.port p).credits = setAt (s.port p).credits o.pkt.cls ((s.port p).credits.getD o.pkt.cls 0 - o.pkt.flits)
          ∧ (o.pkt.cls = 3 ∨ o.pkt.cls = 4 → t.fab.slots.getD (16 * inputOf p + o.pkt.coll) 8 = s.slotCredits p o.pkt.coll slot - 1)
          ∧ t.fab.tags = s.fab.tags ∧ t.fab.out = s.fab.out.eraseIdx i ∧ SameCores s.toDev t.toDev))
    ∧ (∀ (p : PortNo) (slot : Bool) (tx : Tx) (l : List Tx), s.usable p = true → (s.port p).again = tx :: l →
        Completes (.fabPacketSend p slot) s (fun t =>
          (t.port p).tx = some { tx with ue := s.bit (aSlp p 0x18) 0 } ∧ (t.port p).again = l ∧ (t.port p).replay = (s.port p).replay ∧ (t.port p).txSeq = (s.port p).txSeq
          ∧ t.fab.out = s.fab.out ∧ SameCores s.toDev t.toDev ∧ SameMemory s.toDev t.toDev))
    ∧ (∀ (tag : BitVec 16) (g : Tag), Tbl.look s.fab.tags tag.toNat = some g → g.tick + s.fld (aFab 0x114) 15 0 ≤ s.tick →
        Completes (.fabTagTimeout tag) s (fun t =>
          Tbl.look t.fab.tags tag.toNat = none ∧ Tbl.look t.fab.quar tag.toNat = some (s.tick + 8 * s.fld (aFab 0x114) 15 0)
          ∧ (∀ x, Tbl.look s.fab.sends g.send = some x → (∀ o ∈ t.fab.out, o.send ≠ some g.send)
              ∧ (x.ended = false → t.bit (aFab 0x10) 5 = true ∧ (x.kind = 0 → t.fab.lost = s.fab.lost ++ [(x.job, x.dst, x.msg % 16)])))))

/-- What arrives for this device. PUT: the payload stands at ADDR in HBM with its poison, the message's count takes it, and an ACK goes back; with the last byte the count is 0 again and a record is
written (R289, R295). GET and AMO: the bytes, or the old value, go back (R282). A packet of a job or rank not served is dropped, counted, and sets STRAY (R298). A
packet with VIA goes on once, toward its destination, a REQ as FWD (R279, R290). MGMT goes to the management processor; a FAB_SELF in it makes the peer known (R276, R290). -/
def Obligations.RequestsReceived : Prop :=
  ∀ (s : State) (p : PortNo) (h : BitVec 256) (e : FecErrs), s.clockOn = true → s.ready = true →
    (∀ (data : List Byte) (r : Route),
        let k := (Tx.ofHeader h.toNat data).pkt
        let w := s.msgAt k.job k.src k.msg
        let old := ofBytesLE (s.peek w 8)
        let sum := (old + (if k.last then k.len + 2 ^ 40 + 2 ^ 64 - (k.off + k.len) else k.len)) % 2 ^ 64
        s.takes p 0 h.toNat data e → s.route k.job k.src = some r → s.servesRange k.addr k.len → s.servesRange w 16 →
        s.peekPoison w = false → (k.addr + k.len + 63) / 64 ≤ w / 64 ∨ w / 64 < k.addr / 64 →
        Completes (.putReceive p h data e) s (fun t =>
          (∃ o, t.fab.out = s.fab.out ++ [o] ∧ o.ports = r.ports ∧ o.pkt = { type := 3, cls := 1, job := k.job, src := s.selfRank k.job, dst := k.src, tag := k.tag, board := r.board, dev := r.dev, via := r.via })
          ∧ (sum ≠ 2 ^ 40 → t.peek w 8 = bytesLE 8 sum ∧ (∀ i, i < k.len → t.peek1 (k.addr + i) = data.getD i 0)
              ∧ SameMemoryBut (fun a => (k.addr ≤ a ∧ a < k.addr + k.len) ∨ (w ≤ a ∧ a < w + 16)) s.toDev t.toDev ∧ SameCores s.toDev t.toDev)
          ∧ (sum = 2 ^ 40 → (s.cq k.job).idx - (s.cq k.job).ahead < 2 ^ s.fld (aFabJ k.job 0x10) 4 0 → (t.cq k.job).idx = (s.cq k.job).idx + 1)))
    ∧ (∀ (r : Route),
        let k := (Tx.ofHeader h.toNat []).pkt
        s.takes p 1 h.toNat [] e → s.route k.job k.src = some r → s.servesRange k.addr k.len → (∀ i, i < k.len → s.peekPoison (k.addr + i) = false) →
        Completes (.getReceive p h e) s (fun t =>
          (∃ o, t.fab.out = s.fab.out ++ [o] ∧ o.ports = r.ports ∧ o.pkt = { type := 2, cls := 1, job := k.job, src := s.selfRank k.job, dst := k.src, tag := k.tag, len := k.len, off := k.off, data := s.peek k.addr k.len, board := r.board, dev := r.dev, via := r.via })
          ∧ (∀ a, t.peek1 a = s.peek1 a) ∧ SameCores s.toDev t.toDev))
    ∧ (∀ (data : List Byte) (r : Route) (n : Nat),
        let k := (Tx.ofHeader h.toNat data).pkt
        let old := ofBytesLE (s.peek k.addr n)
        s.takes p 4 h.toNat data e → s.route k.job k.src = some r → atomicWidth k.op = some n → k.addr % n = 0 → s.servesBlock k.addr → s.peekPoison k.addr = false →
        Completes (.amoReceive p h data e) s (fun t =>
          t.peek k.addr n = bytesLE n (atomicNew k.op (8 * n) old (ofBytesLE (data.take 8) % 2 ^ (8 * n)) (ofBytesLE (data.drop 8) % 2 ^ (8 * n)))
          ∧ (∃ o, t.fab.out = s.fab.out ++ [o] ∧ o.pkt.type = 5 ∧ o.pkt.tag = k.tag ∧ o.pkt.data = bytesLE 8 old ∧ o.pkt.poison = k.poison ∧ o.ports = r.ports)
          ∧ SameMemoryBut (fun a => k.addr ≤ a ∧ a < k.addr + n) s.toDev t.toDev ∧ SameCores s.toDev t.toDev))
    ∧ (s.linkTakes p h.toNat e → (Tx.ofHeader h.toNat []).pkt.arrives 3 = true → s.expects (Tx.ofHeader h.toNat []).pkt = false →
        Completes (.ackReceive p h e) s (fun t =>
          t.reg (aFab 0x124) = satAdd (s.reg (aFab 0x124)) 1 ∧ t.bit (aFab 0x10) 0 = true ∧ t.fab.tags = s.fab.tags ∧ SameMemory s.toDev t.toDev ∧ SameCores s.toDev t.toDev))
    ∧ (∀ (data : List Byte) (mesh : Bool), let k := (Tx.ofHeader h.toNat data).pkt
        s.linkTakes p h.toNat e → k.via = true → k.cls ≤ 1 →
        Completes (.fwdPacket p h data mesh e) s (fun t =>
          (s.secondHop k.board k.dev ≠ [] → t.fab.out = s.fab.out ++ [{ ports := s.secondHop k.board k.dev, pkt := { k with via := false, cls := (if k.cls = 0 then 2 else 1), poison := k.poison || (mesh && !data.isEmpty) } }]
              ∧ t.reg (aFab 0x128) = satAdd (s.reg (aFab 0x128)) 1)
          ∧ (s.secondHop k.board k.dev = [] → t.fab.out = s.fab.out ∧ t.reg (aFab 0x124) = satAdd (s.reg (aFab 0x124)) 1)
          ∧ SameMemory s.toDev t.toDev ∧ SameCores s.toDev t.toDev))
    ∧ (∀ (data : List Byte), let k := (Tx.ofHeader h.toNat data).pkt
        s.linkTakes p h.toNat e → k.type = 8 → data.length = k.len →
        Completes (.mgmtReceive p h data none e) s (fun t =>
          t.fab.mgmt = (p.val, data) :: s.fab.mgmt ∧ t.fab.out = s.fab.out ∧ SameMemory s.toDev t.toDev ∧ SameCores s.toDev t.toDev))
    ∧ (∀ (data : List Byte) (w : Word), let k := (Tx.ofHeader h.toNat data).pkt
        s.linkTakes p h.toNat e → k.type = 8 → data.length = k.len →
        Completes (.mgmtReceive p h data (some w) e) s (fun t =>
          t.fab.mgmt = (p.val, data) :: s.fab.mgmt ∧ t.reg (aSlp p 0x108) = w ∧ (21 ≤ p.val → t.reg (aFab (0x134 + 4 * (p.val - 21))) = w)))

/-- Responses and collectives. GET_RSP and AMO_RSP land where their tag says and free it; an ACK frees its tag; the last answer of a send writes its record (R287, R295, R296). COL_UP enters its
chunk slot; chunks of one OFFSET from every expected input combine in order, local first, and go to PARENT; at the root of an ALLREDUCE they
go down and land; COL_DN lands on a LOCAL device and is copied to every child (R299–R301). -/
def Obligations.ResponsesAndCollectives : Prop :=
  ∀ (s : State), s.clockOn = true → s.ready = true →
    (∀ (p : PortNo) (h : BitVec 256) (data : List Byte) (e : FecErrs) (get : Bool) (g : Tag) (x : Send),
        let k := (Tx.ofHeader h.toNat data).pkt
        let l := if get then data else data.take x.total
        s.takes p (if get then 2 else 5) h.toNat data e → s.tagFor k (if get then 1 else 4) = some g → Tbl.look s.fab.sends g.send = some x →
        s.servesRange g.land_ k.len →
        Completes (if get then .getRspReceive p h data e else .amoRspReceive p h data e) s (fun t =>
          Tbl.look t.fab.tags k.tag = none
          ∧ (x.left ≠ 1 → x.left ≠ 0 → (∀ i, i < l.length → t.peek1 (g.land_ + i) = l.getD i 0)
              ∧ SameMemoryBut (fun a => g.land_ ≤ a ∧ a < g.land_ + l.length) s.toDev t.toDev ∧ SameCores s.toDev t.toDev)
          ∧ (x.left = 1 → x.cut = true → x.ended = false → x.hw = false → (s.cq x.job).idx - (s.cq x.job).ahead < 2 ^ s.fld (aFabJ x.job 0x10) 4 0 →
              (t.cq x.job).idx = (s.cq x.job).idx + 1 ∧ Tbl.look t.fab.sends g.send = none)))
    ∧ (∀ (p : PortNo) (h : BitVec 256) (e : FecErrs) (g : Tag) (x : Send),
        let k := (Tx.ofHeader h.toNat []).pkt
        s.takes p 3 h.toNat [] e → s.tagFor k 0 = some g → Tbl.look s.fab.sends g.send = some x →
        Completes (.ackReceive p h e) s (fun t =>
          Tbl.look t.fab.tags k.tag = none
          ∧ (x.left ≠ 1 → x.left ≠ 0 → Tbl.look t.fab.sends g.send = some { x with left := x.left - 1 } ∧ SameMemory s.toDev t.toDev ∧ SameCores s.toDev t.toDev)
          ∧ (x.left = 1 → x.cut = true → x.ended = false → x.hw = false → (s.cq x.job).idx - (s.cq x.job).ahead < 2 ^ s.fld (aFabJ x.job 0x10) 4 0 →
              (t.cq x.job).idx = (s.cq x.job).idx + 1 ∧ Tbl.look t.fab.sends g.send = none)))
    ∧ (∀ (p : PortNo) (h : BitVec 256) (data : List Byte) (e : FecErrs),
        let k := (Tx.ofHeader h.toNat data).pkt
        s.takes p 6 h.toNat data e → s.colValid k.coll k.job = true → inputOf p ∈ s.colKids k.coll →
        (s.fab.chunks.filter (fun x => x.coll == k.coll && x.input == inputOf p)).length < 8 →
        Completes (.colUpReceive p h data e) s (fun t =>
          t.fab.chunks = s.fab.chunks ++ [⟨k.coll, inputOf p, k.off, k.op, k.job, data, k.poison⟩] ∧ SameMemory s.toDev t.toDev ∧ SameCores s.toDev t.toDev))
    ∧ (∀ (c : BitVec 8) (off : BitVec 32) (l : List ColChunk) (x : ColChunk), s.colInputs c.toNat off.toNat = some l → colSum l = some x →
        Tbl.look s.fab.cols c.toNat = none → s.colRoot c.toNat = false →
        Completes (.colChunkCombine c off) s (fun t =>
          t.fab.chunks = s.fab.chunks.filter (fun y => !(y.coll == c.toNat && y.off == off.toNat))
          ∧ (∃ o, t.fab.out = s.fab.out ++ [o] ∧ o.low = true ∧ o.ports = inputPorts (s.fld (aFabColl c.toNat 0) 3 0) ∧ o.pkt.type = 6 ∧ o.pkt.off = off.toNat
              ∧ o.pkt.data = x.data ∧ o.pkt.poison = x.poison ∧ o.pkt.op = x.op ∧ o.pkt.coll = c.toNat ∧ o.pkt.job = x.job)
          ∧ SameMemory s.toDev t.toDev ∧ SameCores s.toDev t.toDev))
    ∧ (∀ (c : BitVec 8) (off : BitVec 32) (l : List ColChunk) (x : ColChunk) (k : Col), s.colInputs c.toNat off.toNat = some l → colSum l = some x →
        Tbl.look s.fab.cols c.toNat = some k → s.colRoot c.toNat = true → s.colLocal c.toNat = true → k.mode = 0 → s.servesRange (k.dst + off.toNat) x.data.length →
        s.fab.landed.getD c.toNat 0 + x.data.length < k.len → k.off < k.len →
        Completes (.colChunkCombine c off) s (fun t =>
          (∀ i, i < x.data.length → t.peek1 (k.dst + off.toNat + i) = x.data.getD i 0)
          ∧ t.fab.out = s.fab.out ++ (s.colKids c.toNat).map (fun i => { pkt := s.colPkt 7 c.toNat k.job x.op off.toNat (k.dst + off.toNat) x.data x.poison, ports := inputPorts i, low := true })
          ∧ SameMemoryBut (fun a => k.dst + off.toNat ≤ a ∧ a < k.dst + off.toNat + x.data.length) s.toDev t.toDev ∧ SameCores s.toDev t.toDev))
    ∧ (∀ (p : PortNo) (h : BitVec 256) (data : List Byte) (e : FecErrs),
        let k := (Tx.ofHeader h.toNat data).pkt
        s.takes p 7 h.toNat data e → s.colValid k.coll k.job = true → inputOf p = s.fld (aFabColl k.coll 0) 3 0 → s.colLocal k.coll = true →
        s.servesRange k.addr k.len → Tbl.look s.fab.cols k.coll = none →
        Completes (.colDnReceive p h data e) s (fun t =>
          (∀ i, i < k.len → t.peek1 (k.addr + i) = data.getD i 0)
          ∧ t.fab.out = s.fab.out ++ (s.colKids k.coll).map (fun i => { pkt := s.colPkt 7 k.coll k.job k.op k.off k.addr data k.poison, ports := inputPorts i, low := true })
          ∧ SameMemoryBut (fun a => k.addr ≤ a ∧ a < k.addr + k.len) s.toDev t.toDev ∧ SameCores s.toDev t.toDev))

/-- Ports: credits owed, and a NAK owed, go back in a LINK CREDIT, which for credits alone waits for 32 ns of silence, and are taken in by the other end; a LINK packet is kept for replay,
behind a replay under way (R283, R285); RETRY_LIM replays retrain a port, which comes back at the width of its lanes, or is held down
below MIN_WIDTH or after 200 ms; a lost signal holds it down (R284, R430, R447, R449). Calendar: the master opens its window at the due tick with CAL_START, closes it with CAL_END and CAL_NEXT; the other end follows;
four deferrals, then a forced window (R302–R304). No table replacement waits for the port's window. -/
def Obligations.PortsAndCalendar : Prop :=
  ∀ (s : State) (p : PortNo), s.pw.railHold = false → Tbl.look s.fw.lanesDue p = none →
    let x := s.port p
    let sent (t : State) (l : List Pkt) : Prop := ∃ ys : List Tx, (t.port p).replay = x.replay ++ ys ∧ ys.map Tx.pkt = l
      ∧ (∀ y, ys.head? = some y → x.again = [] → l.length = 1 → (t.port p).tx = some { y with ue := s.bit (aSlp p 0x18) 0 })
      ∧ (x.again ≠ [] → (t.port p).again = x.again ++ ys)
    (x.up = true → x.window = false → x.flitRoom = true →
        (∀ c, s.crdClass p = some c → x.nak = true ∨ x.lastTx + 61 ≤ s.cycle → Completes (.linkCreditSend p) s (fun t =>
            sent t [{ type := 15, cls := 7, op := 0 }]
            ∧ (∃ y, (t.port p).replay = x.replay ++ [y] ∧ y.crdClass = c ∧ y.crd = min 1023 (x.owed.getD c 0) ∧ y.lseq = x.txSeq ∧ y.nak = x.nak)
            ∧ (t.port p).owed = setAt x.owed c (x.owed.getD c 0 - min 1023 (x.owed.getD c 0)) ∧ (t.port p).nak = false
            ∧ SameMemory s.toDev t.toDev ∧ SameCores s.toDev t.toDev))
        ∧ (s.crdClass p = none → x.nak = true → Completes (.linkCreditSend p) s (fun t =>
            sent t [{ type := 15, cls := 7, op := 0 }] ∧ (∃ y, (t.port p).replay = x.replay ++ [y] ∧ y.nak = true ∧ y.crd = 0) ∧ (t.port p).nak = false
            ∧ SameMemory s.toDev t.toDev ∧ SameCores s.toDev t.toDev)))
    ∧ (∀ (h : BitVec 256) (e : FecErrs), let k := (Tx.ofHeader h.toNat []).pkt
        s.linkTakes p h.toNat e → bitN h.toNat 5 = false → k.type = 15 → k.cls = 7 →
        (k.op = 0 → bitsN h.toNat 18 16 < 6 → Completes (.linkCreditReceive p h e) s (fun t =>
            (t.port p).credits = setAt x.credits (bitsN h.toNat 18 16) (x.credits.getD (bitsN h.toNat 18 16) 0 + bitsN h.toNat 15 6)
            ∧ (t.port p).rxSeq = bitsN h.toNat 42 31 ∧ SameMemory s.toDev t.toDev ∧ SameCores s.toDev t.toDev))
        ∧ (k.op = 4 → x.master = false → Completes (.calNextReceive p h e) s (fun t =>
            (t.port p).due = s.tick + k.off ∧ t.reg (aSlp p 0x134) = BitVec.ofNat 32 (s.tick + k.off) ∧ (t.port p).window = x.window
            ∧ SameMemory s.toDev t.toDev ∧ SameCores s.toDev t.toDev))
        ∧ (k.op = 3 → x.master = true → x.defers < 4 → s.tick < x.due → x.window = false → Completes (.calDeferReceive p h e) s (fun t =>
            (t.port p).defers = x.defers + 1 ∧ (t.port p).due = x.due + s.fld (aFab 0x110) 15 0 ∧ SameMemory s.toDev t.toDev ∧ SameCores s.toDev t.toDev))
        ∧ (k.op = 1 → x.master = false → Completes (.calStartReceive p h e) s (fun t =>
            (t.port p).window = true ∧ SameMemory s.toDev t.toDev ∧ SameCores s.toDev t.toDev))
        ∧ (k.op = 2 → x.master = false → Completes (.calEndReceive p h e) s (fun t =>
            (t.port p).window = false ∧ SameMemory s.toDev t.toDev ∧ SameCores s.toDev t.toDev)))
    ∧ (x.master = true → x.window = false → x.due ≤ s.tick → x.training = false → x.up = true → x.flitRoom = true → Completes (.slpCalWindow p) s (fun t =>
        (t.port p).window = true ∧ (t.port p).defers = 0 ∧ (t.port p).due = x.orig + max 1 (s.fld (aFab 0x10C) 23 0)
        ∧ sent t [{ type := 15, cls := 7, op := 1 }]
        ∧ t.reg (aSlp p 0x140) = satAdd (s.reg (aSlp p 0x140)) (if x.defers = 4 then 1 else 0) ∧ SameMemory s.toDev t.toDev ∧ SameCores s.toDev t.toDev))
    ∧ (x.master = true → x.window = false → x.due ≤ s.tick → x.training = true → Completes (.slpCalWindow p) s (fun t =>
        (t.port p).window = false ∧ (t.port p).due = x.orig + max 1 (s.fld (aFab 0x10C) 23 0) ∧ SameMemory s.toDev t.toDev ∧ SameCores s.toDev t.toDev))
    ∧ (x.master = true → x.window = true → Completes (.slpCalWindowEnd p) s (fun t =>
        (t.port p).window = false ∧ sent t [{ type := 15, cls := 7, op := 2 }, { type := 15, cls := 7, op := 4, off := x.due - s.tick }] ∧ SameMemory s.toDev t.toDev ∧ SameCores s.toDev t.toDev))
    ∧ (s.serves (aSlp p 0x138) = true → x.window = false →
        (x.master = true → x.defers < 4 → s.tick < x.due → Completes (.slpCalDefer p) s (fun t =>
            (t.port p).defers = x.defers + 1 ∧ (t.port p).due = x.due + s.fld (aFab 0x110) 15 0 ∧ SameMemory s.toDev t.toDev ∧ SameCores s.toDev t.toDev))
        ∧ (x.master = false → x.up = true → x.flitRoom = true → Completes (.slpCalDefer p) s (fun t =>
            sent t [{ type := 15, cls := 7, op := 3 }] ∧ SameMemory s.toDev t.toDev ∧ SameCores s.toDev t.toDev)))
    ∧ (x.up = true → max 1 (s.fld (aSlp p 0x104) 15 8) ≤ x.replays → Completes (.portRetrain p) s (fun t =>
        (t.port p).up = false ∧ (t.port p).training = true ∧ (t.port p).replay = x.replay ∧ (t.port p).trainT = s.tick
        ∧ t.reg (aSlp p 0x11C) = satAdd (s.reg (aSlp p 0x11C)) 1 ∧ SameMemory s.toDev t.toDev ∧ SameCores s.toDev t.toDev))
    ∧ ((x.training = true ∧ x.trainT + 312500 ≤ s.tick) ∨ (x.up = true ∧ x.width < s.minWidth p) → Completes (.portHoldDown p) s (fun t =>
        (t.port p).up = false ∧ (t.port p).held = true ∧ (t.port p).training = false ∧ (t.port p).replay = [] ∧ t.bit (aSlp p 0x10) 2 = true))
    ∧ (x.held = false → Completes (.portSignalLoss p) s (fun t =>
        (t.port p).up = false ∧ (t.port p).held = true ∧ (t.port p).replay = [] ∧ t.reg (aSlp p 0x11C) = satAdd (s.reg (aSlp p 0x11C)) 1))
    ∧ (x.held = true → x.up = false → Completes (.portSignalReturn p) s (fun t =>
        (t.port p).held = false ∧ (t.port p).training = true ∧ (t.port p).trainT = s.tick ∧ SameMemory s.toDev t.toDev ∧ SameCores s.toDev t.toDev))
    ∧ (∀ lanes : BitVec 4, x.training = true →
        (s.minWidth p ≤ laneWidth lanes.toNat → Completes (.portRetrainDone p lanes) s (fun t =>
            (t.port p).up = true ∧ (t.port p).training = false ∧ (t.port p).held = false ∧ (t.port p).width = laneWidth lanes.toNat ∧ (t.port p).lanes = lanes.toNat
            ∧ (laneWidth lanes.toNat < x.width → t.bit (aSlp p 0x10) 4 = true)))
        ∧ (laneWidth lanes.toNat < s.minWidth p → Completes (.portRetrainDone p lanes) s (fun t =>
            (t.port p).up = false ∧ (t.port p).held = true ∧ t.bit (aSlp p 0x10) 2 = true)))

/-! ## Steps, Owl, Squirrel -/

/-- STEP_ARM zeroes the gate line and makes the gate COLLECTING; it starts the generation that a snapshot request asked for; one that R325 refuses is shown, first one with a core RUNNING or STOPPED (R324, R325, R352). STASH_ASSIGN_DONE gives every entry its page in order until one does not fit or is poisoned; that one and the later ones
are RECOMPUTE (R316, R317). A whole-block OR on the line counts a contribution, and the EXPECT-th decides: CLOSED when a masked bit of G is set, else OPEN (R320–R324).
GATE_TIMEOUT fails a gate that waits too long for its collective (R324). -/
def Obligations.StepsAndGates : Prop :=
  ∀ (s : State) (n : JobNo),
    (s.serves (aStepJ n 0) = true → s.armBad n = false → s.gate n ∉ [1, 2, 5, 6] → s.jobQuiet n = true → (s.sqrJob n).next = none → s.servesRange (s.gateLine n) 128 →
        Completes (.stepArm n) s (fun t =>
          t.gate n = 1 ∧ t.reg (aStepJ n 0x18) = 0 ∧ t.bit (aStepJ n 0x1C) 4 = true
          ∧ Tbl.look t.armHwm n = some (s.reg (aStash n 8)).toNat ∧ Tbl.look t.armT n = some s.tick
          ∧ (∀ i, i < 128 → t.peek1 (s.gateLine n + i) = 0)
          ∧ SameMemoryBut (fun a => s.gateLine n ≤ a ∧ a < s.gateLine n + 128) s.toDev t.toDev ∧ SameCores s.toDev t.toDev))
    ∧ (∀ base, s.serves (aStepJ n 0) = true → s.armBad n = false → s.gate n ∉ [1, 2, 5, 6] → s.jobQuiet n = true → (s.sqrJob n).next = some base → s.sqrOn n = true →
        Completes (.stepArm n) s (fun t =>
          t.gate n = 1 ∧ (t.sqrJob n).st = .running ∧ (t.sqrJob n).gen = ((s.sqrJob n).com + 1) % 65536 ∧ (t.sqrJob n).base = base ∧ (t.sqrJob n).next = none))
    ∧ (s.serves (aStepJ n 0) = true → s.armBad n = true → s.jobQuiet n = true → Completes (.stepArm n) s (fun t =>
        t.bit (aStep 0x10) 3 = true ∧ SameRegsBut [aStep 0x10] s.toDev t.toDev ∧ SameCores s.toDev t.toDev ∧ SameMemory s.toDev t.toDev))
    ∧ (s.serves (aStepJ n 0) = true → (s.armBad n = false ∧ s.gate n ∈ [1, 2, 5, 6]) ∨ s.jobQuiet n = false → Completes (.stepArm n) s (fun t =>
        t.fld (aStepJ n 0x1C) 23 16 = 0x0D ∧ t.gate n = s.gate n ∧ SameRegsBut [aStep 0x10, aStepJ n 0x1C] s.toDev t.toDev ∧ SameCores s.toDev t.toDev ∧ SameMemory s.toDev t.toDev))
    ∧ (∀ hwm j, s.clockOn = true → Tbl.look s.armHwm n = some hwm → s.servesRange (s.dirAddr n) (16 * s.dirCount n) → j ≤ s.dirCount n →
        let e (i : Nat) : Nat := s.dirAddr n + 16 * i
        let bytes (i : Nat) : Nat := ofBytesLE (s.peek (e i) 4) * 64
        let off (i : Nat) : Nat := ((List.range i).map (fun m => roundUp (bytes m) 4096)).sum
        (∀ i, i < j → s.peekPoison (e i) = false ∧ off i + bytes i ≤ hwm * 4096) →
        (j < s.dirCount n → s.peekPoison (e j) = true ∨ hwm * 4096 < off j + bytes j) →
        Completes (.stashAssignDone n) s (fun t =>
          (∀ i, i < s.dirCount n →
            t.peek (e i + 4) 4 = bytesLE 4 (if i < j then off i / 4096 else 0)
            ∧ t.peek1 (e i + 15) = BitVec.ofNat 8 ((s.peek1 (e i + 15)).toNat % 64 + (if i < j then 64 else 128)))
          ∧ t.reg (aStash n 0x14) = BitVec.ofNat 32 j ∧ t.reg (aStash n 0x18) = BitVec.ofNat 32 (off j / 4096)
          ∧ t.reg (aStash n 0x1C) = satAdd (s.reg (aStash n 0x1C)) (s.dirCount n - j) ∧ t.bit (aStepJ n 0x1C) 4 = false ∧ Tbl.look t.armHwm n = none
          ∧ SameMemoryBut (fun a => s.dirAddr n ≤ a ∧ a < s.dirAddr n + 16 * s.dirCount n) s.toDev t.toDev ∧ SameCores s.toDev t.toDev))
    ∧ (s.clockOn = true → s.gate n = 2 → s.readyT.getD n 0 + s.fld (aStep 0x100) 23 0 ≤ s.tick → Completes (.gateTimeout n) s (fun t =>
        t.gate n = 5 ∧ t.fld (aStepJ n 0x1C) 23 16 = 0x0C ∧ t.bit (aStep 0x10) 0 = true
        ∧ SameRegsBut [aStep 0x10, aStepJ n 0x1C] s.toDev t.toDev ∧ SameCores s.toDev t.toDev ∧ SameMemory s.toDev t.toDev))
    ∧ (∀ (die : Fin 2) (pa : BitVec 41) (data : List Byte), s.clockOn = true → pa.toNat = s.gateLine n → s.servesRange pa.toNat 64 → data.length = 64 → s.gate n = 1 →
        (∀ m : JobNo, m ≠ n → s.gateLine m ≠ pa.toNat ∨ s.gate m = 0) → s.peekPoison pa.toNat = false →
        let c := s.fld (aStepJ n 0x18) 23 0 + 1
        let word := ofBytesLE ((redBytes 6 (s.peek pa.toNat 64) data).take 4)
        (c < 2 ^ 24 → c ≠ s.fld (aStepJ n 0x14) 23 0 → Completes (.postedReduction die 6 pa data false) s (fun t =>
            t.fld (aStepJ n 0x18) 23 0 = c ∧ t.gate n = 1 ∧ t.peek pa.toNat 64 = redBytes 6 (s.peek pa.toNat 64) data
            ∧ SameMemoryBut (fun a => pa.toNat ≤ a ∧ a < pa.toNat + 64) s.toDev t.toDev ∧ SameCores s.toDev t.toDev))
        ∧ (c = s.fld (aStepJ n 0x14) 23 0 → s.bit (aStepJ n 4) 30 = false → bitN word 15 = false → Completes (.postedReduction die 6 pa data false) s (fun t =>
            t.gate n = (if word &&& (s.reg (aStepJ n 8)).toNat % 2 ^ 29 ≠ 0 then 4 else 3)
            ∧ SameMemoryBut (fun a => pa.toNat ≤ a ∧ a < pa.toNat + 64) s.toDev t.toDev ∧ SameCores s.toDev t.toDev)))

/-- OWL_JOB_STOP stops a job once, of the causes of one cycle with the lowest code: its streams that run or have halted are FAULTED, its operations are discarded, its DMA channels are disabled, its packets are dropped, its stop is recorded, and no core of another job changes (R344, R346).
OWL_INTERVAL decays the event inputs and takes the score (R347, R348); OWL_FORCE_FENCE takes a waiting fence at once (R343); CLR_SPARE, FORCE_SNAP and a new event ring (R348, R349, R359). The table of cores is in its canonical form
(StepKeepsInvariant). -/
def Obligations.OwlCommands : Prop :=
  ∀ (s : State),
    (∀ (n : JobNo) (code : BitVec 8), s.serves (aOwlJ 0x100) = true → code.toNat < 0x16 → s.bit (aOwlJ (0x200 + 4 * n)) 31 = false → Tbl.risesFrom 0 s.cores = true →
        Completes (.owlJobStop n code) s (fun t =>
          t.reg (aOwlJ (0x200 + 4 * n)) = BitVec.ofNat 32 (0x80000000 + code.toNat * 2 ^ 16 + 0x1FF) ∧ t.bit (aOwl 0x10) 3 = true
          ∧ t.bit (aFabJ n 0) 31 = false
          ∧ (∀ c, (s.core c).job = some n.val → (t.core c).flight = [] ∧ (t.core c).issue = [] ∧ (t.core c).dec = none
              ∧ (∀ e, ((t.core c).stream e).st = (if ((s.core c).stream e).st = .running ∨ ((s.core c).stream e).st = .halted then .faulted else ((s.core c).stream e).st)))
          ∧ (∀ c, (s.core c).job ≠ some n.val → t.core c = s.core c)
          ∧ (∀ ch, ch < 64 → s.fld (aDmaC ch 0) 29 24 = n.val → (t.chan ch).st = .disabled)
          ∧ (s.gate n = 1 ∨ s.gate n = 2 → t.gate n = 5)))
    ∧ (∀ (n : JobNo) (code : BitVec 8), s.serves (aOwlJ 0x100) = true → 0x16 ≤ code.toNat
          ∨ (s.bit (aOwlJ (0x200 + 4 * n)) 31 = true ∧ (flag (s.eventBits (aOwlJ (0x200 + 4 * n))) 31 = false ∨ s.fld (aOwlJ (0x200 + 4 * n)) 23 16 ≤ code.toNat)) →
        Completes (.owlJobStop n code) s (fun t => t = s))
    ∧ (∀ f : FenceReq, s.serves (aOwl 0x110) = true → s.fences = [f] → f.phys < 312 → Completes .owlForceFence s (fun t => t.fences = [] ∧ t.fpState f.phys = 3))
    ∧ (s.serves (aOwl 0x110) = true → Completes .owlClrSpare s (fun t => t.owl = { s.owl with spare := false }
        ∧ SameRegsBut [] s.toDev t.toDev ∧ SameCores s.toDev t.toDev ∧ SameMemory s.toDev t.toDev))
    ∧ (s.serves (aOwl 0x110) = true → Completes .owlForceSnap s (fun t => (∀ n : JobNo, n.val ∈ t.owl.force)
        ∧ SameRegsBut [] s.toDev t.toDev ∧ SameCores s.toDev t.toDev ∧ SameMemory s.toDev t.toDev))
    ∧ (s.pw.railHold = false → s.tick % 15625 = 0 → s.owl.ended < s.tick → s.bit (aOwl 0x100) 31 = true →
        let acc (k : Nat) : Nat := if k = 2 ∨ k = 7 then 0
          else min (s.owl.acc.getD k 0 - (s.owl.acc.getD k 0 + 15) / 16 + 256 * s.owl.ev.getD k 0) 0xFFFFFFFF
        let score := min 255 ((List.range 9).map (fun k => s.owlPoints k (acc k))).sum
        Completes .owlInterval s (fun t =>
          t.owl.score = score ∧ t.owl.peak = max s.owl.peak score ∧ t.owl.ended = s.tick
          ∧ (score < s.fld (aOwl 0x104) 7 0 → score < s.fld (aOwl 0x104) 23 16 → t.owl.ev = [])
          ∧ (∀ k, k < 9 → t.owl.acc.getD k 0 = acc k ∧ t.reg (aOwl (0x180 + 4 * k)) = BitVec.ofNat 32 (s.owlPoints k (acc k)))
          ∧ (s.fld (aOwl 0x104) 7 0 ≤ score → s.owl.loArmed = true → t.owl.loArmed = false ∧ t.bit (aOwl 0x10) 0 = true
              ∧ t.reg (aOwl 0x128) = satAdd (s.reg (aOwl 0x128)) 1)
          ∧ (s.fld (aOwl 0x104) 23 16 ≤ score → s.owl.hiArmed = true → t.owl.spare = true ∧ t.bit (aOwl 0x10) 1 = true)
          ∧ SameCores s.toDev t.toDev))
    ∧ (∀ (i : Fin 3) (v : Word), s.serves (aOwl (0x118 + 4 * i)) = true → (∀ p, pageOf (aOwl (0x118 + 4 * i)) = some p → s.quiet p (aOwl 0) (0x118 + 4 * i) = true) →
        Completes (.owlLogRestart i v) s (fun t =>
          t.owl = { s.owl with idx := 0, ahead := 0 } ∧ t.reg (aOwl 0x124) = 0
          ∧ SameRegsBut [aOwl (0x118 + 4 * i), aOwl 0x124] s.toDev t.toDev ∧ SameCores s.toDev t.toDev ∧ SameMemory s.toDev t.toDev))

/-- First touch, sweep, budget and merge (R353–R355): the copy of a page whose first touch is done stands in its stage page, the page is TOUCHED, and the access it held is performed; the sweep sends V of a MIRROR page to the
mirror buffer of the generation, and V XOR O of a PARITY page into its holder's D; a quantum clears the count of each die's budget; a merge leaves A XOR D, or D after a base generation, in A, and zero in D. -/
def Obligations.SquirrelPages : Prop :=
  ∀ (s : State), s.clockOn = true →
    (∀ (pg : BitVec 25) (k : Nat) (w : HeldWrite), pg.toNat ∈ s.sqrCopy → (s.sqrPage pg.toNat).x = some k →
        s.sqrHeld.filter (fun w => w.addr / 0x10000 == pg.toNat) = [w] → w.red = none → w.data ≠ [] → w.addr % 64 + w.data.length ≤ 64 →
        let a := pg.toNat * 0x10000
        s.soundRange a 0x10000 → s.soundRange (s.stageAt k) 0x10000 → s.stageAt k ≠ a →
        Completes (.sqrFirstTouchDone pg) s (fun t =>
          (∀ i, i < 0x10000 → t.peek1 (s.stageAt k + i) = s.peek1 (a + i)) ∧ (∀ i, i < w.data.length → t.peek1 (w.addr + i) = w.data.getD i 0)
          ∧ SameMemoryBut (fun b => (s.stageAt k ≤ b ∧ b < s.stageAt k + 0x10000) ∨ (w.addr ≤ b ∧ b < w.addr + w.data.length)) s.toDev t.toDev
          ∧ (t.sqrPage pg.toNat).touched = true ∧ (t.sqrPage pg.toNat).x = some k ∧ t.sqrCopy = s.sqrCopy.erase pg.toNat
          ∧ t.sqrHeld = s.sqrHeld.filter (fun w => w.addr / 0x10000 != pg.toNat)
          ∧ t.reg (aSqr 0x12C) = satAdd (s.reg (aSqr 0x12C)) 1 ∧ SameCores s.toDev t.toDev))
    ∧ (∀ (pg : BitVec 25) (e : SqrEntry), s.entryOf pg.toNat = some e → (s.sqrPage pg.toNat).send = true → (s.sqrJob e.job).st = .running →
        s.sqrUsed.getD (s.pageDie pg.toNat) 0 + 0x10000 ≤ s.sqrBudget → pg.toNat ∉ s.sqrCopy → s.soundRange (s.pageV pg.toNat) 0x10000 →
        let q := pg.toNat - e.addr / 0x10000
        let v := s.peek (s.pageV pg.toNat) 0x10000
        let after (t : State) : Prop := (t.sqrPage pg.toNat).send = false ∧ t.sqrUsed = s.sqrCharge s.sqrUsed pg.toNat ∧ (t.sqrJob e.job).unacked = (s.sqrJob e.job).unacked + 1
          ∧ t.reg (aSqr 0x130) = satAdd (s.reg (aSqr 0x130)) 1 ∧ (∀ a, t.peek1 a = s.peek1 a) ∧ SameCores s.toDev t.toDev
        (e.method ≠ 2 → s.sqrOld.getD e.i 0 ≠ 2 → (∀ i, i < 0x10000 → s.peekPoison (s.pageV pg.toNat + i) = false) → (s.sqrPage pg.toNat).o = none →
            Completes (.sqrSweepSend pg) s (fun t =>
              t.hwSends = s.hwSends ++ [{ job := e.job, rank := e.mrank, addr := e.maddr + (s.sqrJob e.job).gen % 2 * e.pages * 0x10000 + q * 0x10000, data := v, gen := true }]
              ∧ after t))
        ∧ (∀ (o m : Nat), e.method = 2 → s.sqrOld.getD e.i 0 = 2 → (s.sqrPage pg.toNat).o = some o → s.ownIndex e.job = some m → s.soundRange (s.stageAt o) 0x10000 →
            (∀ i, i < 0x10000 → s.peekPoison (s.pageV pg.toNat + i) = false ∧ s.peekPoison (s.stageAt o + i) = false) →
            Completes (.sqrSweepSend pg) s (fun t =>
              t.hwSends = s.hwSends ++ [{ job := e.job, rank := s.memberRank e.job (holderOf m q), addr := e.bankD (q / 7), op := some 7, data := List.zipWith (fun x y => x ^^^ y) v (s.peek (s.stageAt o) 0x10000), gen := true }]
              ∧ after t)))
    ∧ (s.sqrQ + 1900 ≤ s.cycle → Completes .sqrBudgetQuantum s (fun t =>
        t.sqrUsed = [] ∧ t.sqrFt = [] ∧ t.sqrQ = s.cycle
        ∧ (s.sqrBudget < s.sqrFt.getD 0 0 ∨ s.sqrBudget < s.sqrFt.getD 1 0 → t.reg (aSqr 0x134) = satAdd (s.reg (aSqr 0x134)) 1 ∧ t.bit (aSqr 0x10) 1 = true)
        ∧ SameRegsBut [aSqr 0x134, aSqr 0x10] s.toDev t.toDev ∧ SameCores s.toDev t.toDev ∧ SameMemory s.toDev t.toDev))
    ∧ (∀ (n : JobNo) (e : SqrEntry) (m : Nat), (s.sqrJob n).st = .merging → s.jobEntries n = [e] → s.ownIndex e.job = some m → e.inParity = true →
        s.soundRange e.paddr (2 * e.parPages * 0x10000) → e.paddr % 64 = 0 →
        Completes (.sqrMergeDone n) s (fun t =>
          t.sqrJob n = { (s.sqrJob n) with st := .idle, lost := (s.sqrJob n).again, again := false }
          ∧ (∀ k i, k < e.parPages → i < 0x10000 → t.peek1 (e.bankD k + i) = 0
              ∧ t.peek1 (e.bankA k + i) = (if (s.sqrJob n).base then s.peek1 (e.bankD k + i) else s.peek1 (e.bankA k + i) ^^^ s.peek1 (e.bankD k + i)))
          ∧ SameMemoryBut (fun a => e.paddr ≤ a ∧ a < e.paddr + 2 * e.parPages * 0x10000) s.toDev t.toDev ∧ SameCores s.toDev t.toDev))

/-- SQR_CTRL (R352, R357, R358, R360): START asks for a snapshot; ROLLBACK returns every page of the job to version T and the job to IDLE with C = T; the four rebuild phases copy A into D, push pages into the holders' D, send D to the spare, fetch the spare's mirrors and
rebuild its A; one that R357 or R358 forbids sets CMD_BAD and changes nothing else; a phase is done when none of its sends is outstanding, a rebuild phase with REBUILD_DONE. The job's entries are MIRROR for ROLLBACK, one PARITY entry for PREPARE, PUSH, SEND and REPARITY. -/
def Obligations.SquirrelControl : Prop :=
  ∀ (s : State) (n : JobNo),
    (s.serves (aSqr 0x120) = true → Completes (.sqrStart n) s (fun t =>
        t.sqrJob n = { (s.sqrJob n) with done := false, startPend := ((s.sqrJob n).startPend || s.sqrOn n) }
        ∧ (∀ m, m ≠ n.val → t.sqrJob m = s.sqrJob m) ∧ SameRegsBut [] s.toDev t.toDev ∧ SameCores s.toDev t.toDev ∧ SameMemory s.toDev t.toDev))
    ∧ (∀ i : Instr, s.serves (aSqr 0x120) = true →
        (i = .sqrRollback n ∧ (s.sqrOn n = false ∨ s.jobRuns n = true ∨ (s.sqrJob n).cannot s.sqrT = true ∨ (s.sqrJob n).phase ≠ 0
            ∨ (s.sqrT ≠ (s.sqrJob n).com ∧ ¬ ((s.sqrJob n).st = .committed ∧ s.sqrT = ((s.sqrJob n).com + 65535) % 65536))))
          ∨ (i ∈ [.sqrPrepare n, .sqrPush n, .sqrSend n, .sqrReparity n] ∧ s.phaseOk n = none) →
        Completes i s (fun t =>
          t.bit (aSqr 0x10) 2 = true ∧ t.sqrJob n = { (s.sqrJob n) with done := false } ∧ t.hwSends = s.hwSends
          ∧ SameRegsBut [aSqr 0x10] s.toDev t.toDev ∧ SameCores s.toDev t.toDev ∧ SameMemory s.toDev t.toDev))
    ∧ (s.serves (aSqr 0x120) = true → s.sqrOn n = true → s.jobRuns n = false → (s.sqrJob n).cannot s.sqrT = false → (s.sqrJob n).phase = 0 → s.sqrT = (s.sqrJob n).com →
        (∀ e ∈ s.jobEntries n, e.inParity = false) →
        let pgs := (s.jobEntries n).flatMap SqrEntry.pageNos
        let from_ (pg : Nat) : Option Nat := (s.sqrPage pg).version (decide ((s.sqrJob n).st = .running))
        pgs.Nodup → (∀ pg ∈ pgs, s.soundRange (pg * 0x10000) 0x10000 ∧ ∀ k, from_ pg = some k → s.soundRange (s.stageAt k) 0x10000 ∧ s.stageAt k / 0x10000 ∉ pgs) →
        Completes (.sqrRollback n) s (fun t =>
          (t.sqrJob n).st = .idle ∧ (t.sqrJob n).com = s.sqrT ∧ (t.sqrJob n).phase = 2 ∧ (t.sqrJob n).unacked = 0 ∧ (t.sqrJob n).lost = false
          ∧ (∀ pg ∈ pgs, t.sqrPage pg = (if s.sqrCopy.contains pg then { x := (s.sqrPage pg).x } else {}) ∧ ∀ i, i < 0x10000 → t.peek1 (pg * 0x10000 + i) = s.peek1 ((match from_ pg with
              | some k => s.stageAt k
              | none => pg * 0x10000) + i))
          ∧ (∀ a, a / 0x10000 ∉ pgs → t.peek1 a = s.peek1 a) ∧ (∀ h ∈ t.hwSends, ¬ (h.gen = true ∧ h.job = n.val)) ∧ SameCores s.toDev t.toDev))
    ∧ (∀ (m : Nat) (e : SqrEntry), s.serves (aSqr 0x120) = true → s.phaseOk n = some m → s.entriesBy n 2 = [e] → s.sqrLost < 8 → m < 8 → e.paddr % 64 = 0 →
        s.soundRange e.paddr (2 * e.parPages * 0x10000) → s.soundRange e.addr (e.pages * 0x10000) →
        e.addr + e.pages * 0x10000 ≤ e.paddr ∨ e.paddr + 2 * e.parPages * 0x10000 ≤ e.addr →
        let x := s.sqrLost
        let started (t : State) (ph : Nat) : Prop := (t.sqrJob n).phase = ph ∧ (t.sqrJob n).arg = s.sqrT ∧ (t.sqrJob n).done = false ∧ SameCores s.toDev t.toDev
        let sent (h dst r : Nat) : HwSend := { job := n, rank := s.memberRank n h, addr := dst, op := some 7, data := s.peek (e.addr + r * 0x10000) 0x10000, poison := s.peekPoisonN (e.addr + r * 0x10000) 0x10000 }
        (m ≠ x → Completes (.sqrPrepare n) s (fun t => started t 3 ∧ t.hwSends = s.hwSends
            ∧ (∀ k i, k < e.parPages → i < 0x10000 → t.peek1 (e.bankD k + i) = s.peek1 (e.bankA k + i))
            ∧ SameMemoryBut (fun a => e.bankD 0 ≤ a ∧ a < e.bankD e.parPages) s.toDev t.toDev))
        ∧ (m ≠ x → Completes (.sqrPush n) s (fun t => started t 4 ∧ (∀ a, t.peek1 a = s.peek1 a)
            ∧ t.hwSends = s.hwSends ++ ((List.range 8).filter (fun h => h != m && h != x)).flatMap (fun h =>
                (List.range e.parPages).flatMap (fun k => if stripePage m h k < e.pages then [sent h (e.bankD k) (stripePage m h k)] else []))))
        ∧ (m ≠ x → Completes (.sqrSend n) s (fun t => started t 5 ∧ (∀ k i, k < e.parPages → i < 0x10000 → t.peek1 (e.bankD k + i) = 0)
            ∧ t.hwSends = s.hwSends ++ (List.range e.parPages).flatMap (fun k => if stripePage x m k < e.pages then
                [{ job := n, rank := s.memberRank n x, addr := e.addr + stripePage x m k * 0x10000, data := s.peek (e.bankD k) 0x10000, poison := s.peekPoisonN (e.bankD k) 0x10000 }] else [])
            ∧ SameMemoryBut (fun a => e.bankD 0 ≤ a ∧ a < e.bankD e.parPages) s.toDev t.toDev))
        ∧ (m = x → Completes (.sqrSend n) s (fun t => started t 5 ∧ (t.sqrJob n).com = s.sqrT ∧ (∀ a, t.peek1 a = s.peek1 a)
            ∧ t.hwSends = s.hwSends ++ (s.entriesBy n 1).map (fun y =>
                { job := n, rank := y.mrank, addr := y.maddr + s.sqrT % 2 * y.pages * 0x10000, data := [], get := some (y.addr, y.pages * 0x10000) })))
        ∧ (m ≠ x → Completes (.sqrReparity n) s (fun t => started t 6 ∧ (∀ a, t.peek1 a = s.peek1 a)
            ∧ t.hwSends = s.hwSends ++ (List.range e.parPages).flatMap (fun k => if stripePage m x k < e.pages then [sent x (e.bankA k) (stripePage m x k)] else [])))
        ∧ (m = x → Completes (.sqrReparity n) s (fun t => started t 6 ∧ t.hwSends = s.hwSends
            ∧ (∀ k i, k < e.parPages → i < 0x10000 → t.peek1 (e.bankA k + i) = 0)
            ∧ SameMemoryBut (fun a => e.bankA 0 ≤ a ∧ a < e.bankA e.parPages) s.toDev t.toDev)))
    ∧ (s.clockOn = true → (s.sqrJob n).phase ≠ 0 → (∀ h ∈ s.hwSends, h.job = n.val → h.gen = true) →
        (∀ p ∈ s.fab.sends, p.2.hw = true → p.2.job = n.val → p.2.gen = true ∨ p.2.ended = true) →
        Completes (.sqrPhaseDone n) s (fun t => t.sqrJob n = { (s.sqrJob n) with phase := 0, done := decide ((s.sqrJob n).phase ≠ 2) }
          ∧ SameRegsBut [] s.toDev t.toDev ∧ SameCores s.toDev t.toDev ∧ SameMemory s.toDev t.toDev))

/-! ## Command streams -/

/-- A doorbell moves TAIL, or puts the queue into ERROR where it names no command of the ring; EN starts and stops the queue; a failed read puts it into ERROR (R370, R371). A command that is its stream's next is accepted: HEAD moves on, the stream is bound and
holds it, the ACK word is in its record, and it starts: NOP is DONE, RUN is QUEUED or fails as R390 says, SUSPEND, RESUME, CANCEL and RELEASE act on their target as the table of R392 says, and WAIT waits (R376, R377, R379, R392, R393). A command that the encoding rules refuse is counted and named (R373, R374); a held
command is accepted when it is next (R379, R381), and refused as a gap when its time is over (R378). The ring lies in host memory. -/
def Obligations.CommandsAreAccepted : Prop :=
  ∀ (s : State), s.clockOn = true → s.ready = true →
    (∀ (q : QueueNo) (v : Word), Completes (.sqDoorbell q v false) s (fun t =>
        (v.toNat < s.sqSize q → t.sq q = { (s.sq q) with tail := v.toNat })
        ∧ (s.sqSize q ≤ v.toNat → t.bit (aCmd 0x10) 1 = true ∧ (t.sq q).st = .error ∧ ((s.sq q).st ≠ .error → (t.sq q).err = 0x03) ∧ (t.sq q).tail = (s.sq q).tail)
        ∧ SameCores s.toDev t.toDev ∧ SameMemory s.toDev t.toDev))
    ∧ (∀ (q : QueueNo) (en : Bool), s.serves (aSq q 8) = true → Completes (.sqEnWrite q en) s (fun t =>
        t.bit (aSq q 8) 31 = en ∧ t.sq q = (if en then (if (s.sq q).st = .idle then { (s.sq q) with st := .active } else s.sq q) else { (s.sq q) with st := .idle, err := 0 })
        ∧ SameRegsBut [aSq q 8, aSq q 0xC] s.toDev t.toDev ∧ SameCores s.toDev t.toDev ∧ SameMemory s.toDev t.toDev))
    ∧ (∀ (q : QueueNo) (e : HostEnd), e ≠ .served → s.cmdTakes = true → s.bit (aSq q 8) 31 = true → (s.sq q).st = .active ∨ (s.sq q).st = .stalled →
        (s.sq q).head ≠ (s.sq q).tail → s.sqHost q = true → Completes (.cmdFetch q e) s (fun t =>
          (t.sq q).st = .error ∧ (t.sq q).err = 0x0B ∧ (t.sq q).head = (s.sq q).head ∧ t.bit (aCmd 0x10) 1 = true ∧ t.cb.streams = s.cb.streams
          ∧ SameCores s.toDev t.toDev ∧ SameMemory s.toDev t.toDev))
    ∧ (∀ (q : QueueNo) (c : Nat), s.cmdTakes = true → s.bit (aSq q 8) 31 = true → (s.sq q).st = .active → (s.sq q).head ≠ (s.sq q).tail → s.sqHost q = true →
        s.cb.up = true → s.cb.bme = true → s.hostRead (s.sqAt q (s.sq q).head) 64 = (cellsAt s.hostMem (s.sqAt q (s.sq q).head) 64, false) →
        c = ofBytesLE (cellsAt s.hostMem (s.sqAt q (s.sq q).head) 64) → s.cmdEncBad c = true →
        Completes (.cmdFetch q .served) s (fun t =>
          t.bit (aCmd 0x10) 0 = true ∧ t.reg (aCmd 0x130) = satAdd (s.reg (aCmd 0x130)) 1 ∧ t.reg (aCmd 0x144) = BitVec.ofNat 32 (cmdSeq c)
          ∧ (cplBad c = false → t.hostWord c 0x30 (cmdSeq c * 2 ^ 32 + 1 * 2 ^ 28 + 0xF * 2 ^ 24 + 0x03 * 2 ^ 16))
          ∧ (t.sq q).head = ((s.sq q).head + 1) % s.sqSize q ∧ t.cb.streams = s.cb.streams ∧ SameCores s.toDev t.toDev))
    ∧ (∀ (q : QueueNo) (c : Nat), s.acceptsNext q c →
        let x := cmdStream c
        let tg := cmdArg c 0 % 2 ^ 20
        let a := s.strm tg
        let accepted (t : State) : Prop := (t.strm x).job = some (s.fld (aSq q 8) 29 24) ∧ (t.strm x).last = cmdSeq c ∧ (t.strm x).cmd = c
          ∧ t.hostWord c 0x30 (cmdSeq c * 2 ^ 32) ∧ (t.sq q).head = ((s.sq q).head + 1) % s.sqSize q ∧ (t.sq q).st = .active
          ∧ t.reg (aCmd 0x120) = s.reg (aCmd 0x120) + 1
        let waits (t : State) : Prop := accepted t ∧ (t.strm x).st = .queued ∧ (t.strm x).released = false
        (cmdOp c = 0 → Completes (.nop q) s (fun t => accepted t ∧ (t.strm x).st = .done ∧ (t.strm x).status = 0 ∧ (t.strm x).released = true
            ∧ t.hostWord c 0x38 (cmdSeq c * 2 ^ 32 + 5 * 2 ^ 24) ∧ SameCores s.toDev t.toDev))
        ∧ (cmdOp c = 1 → Completes (.run q) s (fun t => accepted t ∧ (t.strm x).released = false
            ∧ (((t.strm x).launchErr = 0 ∧ (t.strm x).st = .queued) ∨ ((t.strm x).launchErr ∈ [0x01, 0x03] ∧ (t.strm x).st = .failed ∧ (t.strm x).status = (t.strm x).launchErr))
            ∧ SameCores s.toDev t.toDev))
        ∧ (cmdOp c = 2 → Completes (.cmdFetch q .served) s (fun t => waits t ∧ SameCores s.toDev t.toDev))
        ∧ (cmdOp c = 3 → tg ≠ x → cmdOp a.cmd = 1 → Completes (.suspend q) s (fun t => waits t
            ∧ (t.strm tg).st = (if a.st = .queued then .suspended else if a.st = .running then .suspending else a.st) ∧ (t.strm tg).last = a.last))
        ∧ (cmdOp c = 4 → tg ≠ x → Completes (.resume q) s (fun t => waits t
            ∧ (a.st = .suspended → (t.strm tg).st = .queued ∨ (t.strm tg).st = .failed)
            ∧ (a.st = .suspending → (t.strm tg).st = .suspending ∧ (t.strm tg).pendResume = true)
            ∧ (a.st ≠ .suspended → a.st ≠ .suspending → (t.strm tg).st = a.st) ∧ SameCores s.toDev t.toDev))
        ∧ (cmdOp c = 5 → tg ≠ x → Completes (.cancel q) s (fun t => waits t
            ∧ (a.st = .queued ∨ a.st = .suspended → (t.strm tg).st = .cancelled ∧ (t.strm tg).status = 0x11)
            ∧ (a.st = .running → (t.strm tg).st = .cancelling) ∧ (a.st = .suspending → (t.strm tg).st = .suspending ∧ (t.strm tg).pendCancel = true)
            ∧ (a.st.terminal = true → (t.strm tg).st = a.st)))
        ∧ (cmdOp c = 6 → tg ≠ x → Completes (.release q) s (fun t => accepted t ∧ (t.strm x).st = .done ∧ (t.strm x).released = true ∧ (t.strm tg).released = true
            ∧ (t.strm tg).st = a.st ∧ t.hostWord c 0 a.st.code ∧ SameCores s.toDev t.toDev)))
    ∧ (∀ (sid : StreamNo) (h : HeldCmd), s.cb.hold.find? (fun y => y.stream == sid.val && y.seq == seqSucc (s.strm sid).last) = some h → s.cmdTakes = true →
        (s.strm sid).takes h.cmd = true → cmdStream h.cmd = sid.val → s.cmdJobBad h.cmd h.job = false → s.cmdTargetBad h.cmd h.job = false →
        Completes (.cmdHeldAccept sid) s (fun t =>
          (t.strm sid).last = cmdSeq h.cmd ∧ (t.strm sid).cmd = h.cmd ∧ (t.strm sid).job = some h.job
          ∧ t.cb.hold = s.cb.hold.filter (fun y => !(y.stream == sid.val && y.seq == h.seq))))
    ∧ (∀ (sid : StreamNo) (seq : BitVec 32) (h : HeldCmd), s.cb.hold.find? (fun y => y.stream == sid.val && y.seq == seq.toNat) = some h → s.isGap h = true → h.left = 0 →
        s.cb.up = true → s.cb.bme = true →
        Completes (.cmdGapTimeout sid seq) s (fun t =>
          t.cb.hold = s.cb.hold.filter (fun y => !(y.stream == sid.val && y.seq == seq.toNat)) ∧ t.reg (aCmd 0x12C) = satAdd (s.reg (aCmd 0x12C)) 1
          ∧ t.hostWord h.cmd 0x30 (cmdSeq h.cmd * 2 ^ 32 + 0xF * 2 ^ 24 + 0x0F * 2 ^ 16) ∧ t.cb.streams = s.cb.streams ∧ SameCores s.toDev t.toDev))

/-- A QUEUED RUN whose start is due runs when its cores are members of its job, else it fails (R391); it is DONE when every stream has halted, SUSPENDED when every image is saved, CANCELLED after its core resets; a WAIT or control command completes when its target has come to the
state it waits for (R392, R393); a scan restarts what ran (R385). The record's DONE word says so (R375, R376). The table of streams is in its canonical form (StepKeepsInvariant). -/
def Obligations.CommandsRunAndComplete : Prop :=
  ∀ (s : State), s.clockOn = true → s.ready = true → s.cb.up = true → s.cb.bme = true →
    (∀ sid : StreamNo,
      let r := s.strm sid
      let ended (t : State) (st : CmdState) (status : Nat) : Prop := (t.strm sid).st = st ∧ (t.strm sid).status = status ∧ (t.strm sid).last = r.last
        ∧ t.hostWord r.cmd 0x38 (cmdSeq r.cmd * 2 ^ 32 + st.code * 2 ^ 24 + status * 2 ^ 16) ∧ t.reg (aCmd 0x124) = s.reg (aCmd 0x124) + 1
      let cs := r.cores.map (fun l => { l with phys := (s.physOf l.lcore).getD 0x1FF })
      (r.job.isSome = true → cmdOp r.cmd = 1 → r.st = .queued → s.runDue r = true →
          ((∀ l ∈ cs, l.phys ≠ 0x1FF ∧ (s.core l.phys).job = r.job) → r.image = false → (cs.map (fun l => l.phys)).Nodup →
              Completes (.runStart sid) s (fun t => (t.strm sid).st = .running ∧ (t.strm sid).startT = s.tick ∧ (t.strm sid).cores = cs
                ∧ (∀ l ∈ cs, ∀ e : Bool, ((t.core l.phys).stream e).pc = 0
                    ∧ ((t.core l.phys).stream e).st = (if (if e then l.xLen else l.aLen) % 2 ^ 20 = 0 then .halted else .running)
                    ∧ t.reg (aStrm l.phys (if e then 0x110 else 0x120)) = BitVec.ofNat 32 ((if e then l.xBase else l.aBase) % 2 ^ 32))))
          ∧ ((∀ l ∈ cs, l.phys ≠ 0x1FF ∧ (s.core l.phys).job = r.job) → r.image = true → (∀ l ∈ cs, s.restoreCheck l.phys l.ctx = 0) →
              Completes (.runStart sid) s (fun t => (t.strm sid).st = .running ∧ (t.strm sid).startT = s.tick))
          ∧ ((∃ l ∈ cs, l.phys = 0x1FF ∨ (s.core l.phys).job ≠ r.job) → Completes (.runStart sid) s (fun t => ended t .failed 0x03 ∧ SameCores s.toDev t.toDev)))
      ∧ (cmdOp r.cmd = 1 → r.st = .running → (∀ l ∈ r.cores, (s.core l.phys).ctx = none ∧ ∀ e, ((s.core l.phys).stream e).st = .halted) →
          Completes (.runDone sid) s (fun t => ended t .done 0 ∧ SameCores s.toDev t.toDev))
      ∧ (r.st = .suspending → (∀ l ∈ r.cores, (s.core l.phys).ctx = none) →
          ((∀ l ∈ r.cores, s.fld (aCctl l.phys 0x114) 15 8 = 0) →
              (r.pendCancel = false → r.pendResume = false → Completes (.runSuspendDone sid) s (fun t => (t.strm sid).st = .suspended ∧ (t.strm sid).image = true ∧ SameCores s.toDev t.toDev))
              ∧ (r.pendCancel = true → Completes (.runSuspendDone sid) s (fun t => ended t .cancelled 0x11 ∧ SameCores s.toDev t.toDev))
              ∧ (r.pendCancel = false → r.pendResume = true → Completes (.runSuspendDone sid) s (fun t =>
                  ((t.strm sid).st = .queued ∨ (t.strm sid).st = .failed) ∧ (t.strm sid).image = true ∧ SameCores s.toDev t.toDev)))
          ∧ ((∃ l ∈ r.cores, s.fld (aCctl l.phys 0x114) 15 8 ≠ 0) → Completes (.runSuspendDone sid) s (fun t => ended t .failed 0x09 ∧ SameCores s.toDev t.toDev)))
      ∧ (r.st = .cancelling → (∀ l ∈ r.cores, (s.core l.phys).inReset = false) → Completes (.runCancelDone sid) s (fun t => ended t .cancelled 0x11 ∧ SameCores s.toDev t.toDev))
      ∧ (∀ res, r.job.isSome = true → r.st = .queued → 2 ≤ cmdOp r.cmd → s.controlDone r = some res →
          Completes (.controlCmdComplete sid) s (fun t => ended t .done 0 ∧ (t.strm sid).released = true ∧ t.hostWord r.cmd 0 res ∧ SameCores s.toDev t.toDev)))
    ∧ (s.cb.scanning = true → s.cb.recovering = false → s.bit (aRst 0x10C) 0 = false → Tbl.risesFrom 0 s.cb.streams = true → Completes .journalScan s (fun t =>
        t.cb.scanning = false
        ∧ (∀ x, (s.strm x).st = .running ∨ (s.strm x).st = .suspending →
            ((t.strm x).st = .queued ∨ (t.strm x).st = .failed) ∧ (t.strm x).image = false ∧ (t.strm x).restarts = (s.strm x).restarts + 1)
        ∧ (∀ x, (s.strm x).st = .cancelling → (t.strm x).st = .cancelled)
        ∧ (∀ x, (s.strm x).st = .suspended ∨ (s.strm x).st.terminal = true → (t.strm x).st = (s.strm x).st)
        ∧ SameCores s.toDev t.toDev))

/-- Job reset of job n completes every accepted, non-terminal command of the job as CANCELLED (0x11); streams keep their binding and sequence numbers, and held commands stay held. CMD_STREAM_RESET unbinds
a stream whose last command is released and of which nothing is held; otherwise it is ignored and STREAM_BUSY is set (R396). The table of streams is in its canonical form (StepKeepsInvariant). -/
def Obligations.JobResetCancelsCommands : Prop :=
  ∀ (s : State),
    (∀ n : JobNo, s.serves (aRst 0x108) = true → s.bit (aRst 0x10C) 0 = false → s.pw.jobRst.contains n.val = false → Tbl.risesFrom 0 s.cb.streams = true →
        Completes (.rstJob n) s (fun t =>
          (∀ x, (t.strm x).job = (s.strm x).job ∧ (t.strm x).last = (s.strm x).last) ∧ t.cb.hold = s.cb.hold
          ∧ (∀ x, (s.strm x).job = some n.val → (s.strm x).st.terminal = false → (t.strm x).st = .cancelled ∧ (t.strm x).status = 0x11)
          ∧ (∀ x, (s.strm x).job = some n.val → (s.strm x).st.terminal = true → (t.strm x).st = (s.strm x).st)))
    ∧ (∀ sid : StreamNo, s.serves (aCmd 0x148) = true →
        ((s.strm sid).released = true → (∀ h ∈ s.cb.hold, h.stream ≠ sid.val) → Completes (.cmdStreamReset sid) s (fun t =>
            t.strm sid = {} ∧ (∀ x, x ≠ sid.val → t.strm x = s.strm x) ∧ SameCores s.toDev t.toDev))
        ∧ ((s.strm sid).released = false ∨ (∃ h ∈ s.cb.hold, h.stream = sid.val) → Completes (.cmdStreamReset sid) s (fun t =>
            t.bit (aCmd 0x10) 5 = true ∧ t.cb = s.cb ∧ SameRegsBut [aCmd 0x10] s.toDev t.toDev ∧ SameCores s.toDev t.toDev ∧ SameMemory s.toDev t.toDev)))

/-- The journal is enabled while PAUSED: with RECOVER it is scanned, without it every stream is unbound (R386); PAUSE stops acceptance, and a resume copies to a replaced copy first (R387). A core joins
a job that is written its bit when it is free, and leaves it when it stands still and no RUN holds it, its memory being cleared (R395). A calendar slot releases its stream's command or is counted as lost, and a command that is late is counted once (R397, R398). -/
def Obligations.JournalJobsAndCalendar : Prop :=
  ∀ (s : State),
    (∀ rcv, s.serves (aCmd 0x104) = true → s.cb.paused = true → s.bit (aCmd 0x104) 31 = false → Completes (.cmdJrnlEnable rcv) s (fun t =>
        t.bit (aCmd 0x104) 31 = true ∧ t.bit (aCmd 0x104) 30 = rcv ∧ t.reg (aCmd 0x118) = 3
        ∧ (rcv = true → t.cb.scanning = true ∧ t.cb.streams = []) ∧ (rcv = false → t.cb.zeroing = true)
        ∧ SameRegsBut [aCmd 0x104, aCmd 0x118] s.toDev t.toDev ∧ SameCores s.toDev t.toDev ∧ SameMemory s.toDev t.toDev))
    ∧ (s.clockOn = true → s.ready = true → s.cb.zeroing = true → Completes .jrnlZeroDone s (fun t =>
        t.cb.zeroing = false ∧ t.cb.streams = [] ∧ (∀ n : JobNo, t.fld (aCmdJ n 4) 23 0 = 0) ∧ SameCores s.toDev t.toDev))
    ∧ (s.serves (aCmd 0x100) = true → Completes (.cmdPause true) s (fun t => t.bit (aCmd 0x100) 0 = true ∧ t.cb.paused = true
        ∧ SameRegsBut [aCmd 0x100] s.toDev t.toDev ∧ SameCores s.toDev t.toDev ∧ SameMemory s.toDev t.toDev))
    ∧ (s.serves (aCmd 0x100) = true → s.cb.copying = false → Completes (.cmdPause false) s (fun t => t.bit (aCmd 0x100) 0 = false
        ∧ (s.jrnReplaced = none → t.cb.paused = false) ∧ (s.cb.paused = true → s.bit (aCmd 0x104) 31 = true → s.jrnReplaced ≠ none → t.cb.paused = true ∧ t.cb.copying = true)
        ∧ SameRegsBut [aCmd 0x100] s.toDev t.toDev ∧ SameCores s.toDev t.toDev ∧ SameMemory s.toDev t.toDev))
    ∧ (∀ i, s.clockOn = true → s.ready = true → s.cb.copying = true → s.jrnReplaced = some i → Completes .jrnlCopyDone s (fun t =>
        t.cb.copying = false ∧ t.cb.paused = t.bit (aCmd 0x100) 0 ∧ i ∉ t.cb.rebased ∧ t.cb.streams = s.cb.streams ∧ SameCores s.toDev t.toDev))
    ∧ (∀ (n : JobNo) (m : Fin 9) (v : Word) (k c : Nat), s.serves (aCmdJ n (8 + 4 * m)) = true → k < 32 → s.physOf (32 * m + k) = some c →
        (∀ x, x < 32 → x ≠ k → s.physOf (32 * m + x) ≠ some c) →
        (flag v k = true → (s.core c).job = none → (s.core c).clearing = none → s.fenced c = false → s.bit (aFwl (0x180 + c / 32 * 4)) (c % 32) = false →
            Completes (.jobCoresWrite n m v) s (fun t => (t.core c).job = some n.val ∧ t.bit (aCmdJ n (8 + 4 * m)) k = true))
        ∧ (flag v k = false → s.bit (aCmdJ n (8 + 4 * m)) k = true → (∀ e, ((s.core c).stream e).st = .idle ∨ ((s.core c).stream e).st = .halted) → s.heldByRun c = false →
            Completes (.jobCoresWrite n m v) s (fun t => (t.core c).job = none ∧ (t.core c).clearing.isSome = true ∧ t.bit (aCmdJ n (8 + 4 * m)) k = false)))
    ∧ (∀ e : JobNo,
        let r := s.calRec e
        let x := s.fld (aCal e 0) 19 0
        let late := (s.tick % 2 ^ 32 + 2 ^ 32 - s.calTick e r.k) % 2 ^ 32
        (s.clockOn = true → s.ready = true → s.bit (aCal e 0) 31 = true → late < 2 ^ 31 → s.calOf x = some e.val →
            ((s.strm x).job.isSome = true → (s.strm x).st = .queued → bitN (s.strm x).cmd 10 = true → (s.strm x).slotT = none → Completes (.calSlot e) s (fun t =>
                (t.strm x).slotT = some (s.tick - late) ∧ (t.calRec e).k = r.k + 1 ∧ (t.calRec e).open_ = some ((s.strm x).last, s.tick - late)
                ∧ SameRegsBut [] s.toDev t.toDev ∧ SameCores s.toDev t.toDev ∧ SameMemory s.toDev t.toDev))
            ∧ ((s.strm x).job = none ∨ (s.strm x).st ≠ .queued → Completes (.calSlot e) s (fun t =>
                (t.calRec e).k = r.k + 1 ∧ t.reg (aCal e 0x18) = satAdd (s.reg (aCal e 0x18)) 1 ∧ t.cb.streams = s.cb.streams
                ∧ SameRegsBut [aCal e 0x18] s.toDev t.toDev ∧ SameCores s.toDev t.toDev ∧ SameMemory s.toDev t.toDev)))
        ∧ (∀ seq tk, s.clockOn = true → s.ready = true → r.open_ = some (seq, tk) → tk + s.fld (aCal e 0x10) 23 0 ≤ s.tick → Completes (.calDeadline e) s (fun t =>
            (t.calRec e).open_ = none
            ∧ t.reg (aCal e 0x14) = satAdd (s.reg (aCal e 0x14)) (if (s.strm x).last = seq ∧ (s.strm x).st.terminal = false then 1 else 0)
            ∧ t.cb.streams = s.cb.streams ∧ SameRegsBut [aCal e 0x14] s.toDev t.toDev ∧ SameCores s.toDev t.toDev ∧ SameMemory s.toDev t.toDev)))

/-! ## The host -/

/-- A BAR2 read answers with the bytes of HBM and the poison of their blocks, which is counted and reported; a write stores its bytes, and a poisoned one poisons every block it touches and is counted; an aligned AtomicOp of 32 or 64
bits adds, swaps, or compares and swaps and answers with the old value, and one of 128 bits is answered UR, as is every request before READY; a request past the size of BAR2 does nothing. The range is HBM that serves it at once. PCIE_CPL_TIMEOUT fails the read that waits,
and is counted and reported, in AER too. FLR disables every submission queue (R361, R363–R367, R436). -/
def Obligations.HostReachesHbm : Prop :=
  ∀ (s : State), s.clockOn = true → s.bit (aRst 0x10C) 0 = false →
    (∀ (off : BitVec 41) (n : BitVec 13),
        let pa := s.bar2Base + off.toNat
        let p := s.peekPoisonN pa n.toNat
        (off.toNat + n.toNat ≤ 2 ^ s.cb.bar2 → s.ready = true → s.servesRange pa n.toNat → Completes (.bar2Read off n) s (fun t =>
            t.rdata = s.peek pa n.toNat ∧ t.rpoison = p ∧ t.rur = false
            ∧ (p = true → t.reg (aHif 0x10C) = satAdd (s.reg (aHif 0x10C)) 1 ∧ t.bit (aHif 0x10) 0 = true)
            ∧ (∀ a, t.peek1 a = s.peek1 a) ∧ SameCores s.toDev t.toDev))
        ∧ (off.toNat + n.toNat ≤ 2 ^ s.cb.bar2 → s.ready = false → Completes (.bar2Read off n) s (fun t =>
            t.rur = true ∧ t.rdata = [] ∧ bitN t.cb.aer 20 = true ∧ SameMemory s.toDev t.toDev ∧ SameCores s.toDev t.toDev ∧ SameRegsBut [] s.toDev t.toDev))
        ∧ (2 ^ s.cb.bar2 < off.toNat + n.toNat → Completes (.bar2Read off n) s (fun t => t = s)))
    ∧ (∀ (off : BitVec 41) (data : List Byte) (ep : Bool),
        let pa := s.bar2Base + off.toNat
        (off.toNat + data.length ≤ 2 ^ s.cb.bar2 → s.ready = true → s.servesRange pa data.length → Completes (.bar2Write off data ep) s (fun t =>
            (∀ n, n < data.length → t.peek1 (pa + n) = data.getD n 0)
            ∧ (ep = true → (∀ n, n < data.length → t.peekPoison (pa + n) = true) ∧ t.reg (aHif 0x110) = satAdd (s.reg (aHif 0x110)) 1 ∧ t.bit (aHif 0x10) 1 = true)
            ∧ (ep = false → ∀ n, n + 64 ≤ data.length → (pa + n) % 64 = 0 → t.peekPoison (pa + n) = false)
            ∧ SameMemoryBut (fun a => pa ≤ a ∧ a < pa + data.length) s.toDev t.toDev ∧ SameCores s.toDev t.toDev))
        ∧ (s.ready = false → Completes (.bar2Write off data ep) s (fun t => SameMemory s.toDev t.toDev ∧ SameCores s.toDev t.toDev
            ∧ SameRegsBut [aHif 0x110, aHif 0x10] s.toDev t.toDev)))
    ∧ (∀ (off : BitVec 41) (op : AtomicOp) (sz : AtomicSize) (a cmp : BitVec 128), off.toNat + sz.bytes ≤ 2 ^ s.cb.bar2 → s.ready = true →
        let pa := s.bar2Base + off.toNat
        let w := sz.bytes
        let old := ofBytesLE (s.peek pa w)
        (sz ≠ .w128 → pa % w = 0 → s.servesBlock pa → s.peekPoison pa = false → Completes (.bar2Atomic off op sz a cmp) s (fun t =>
            t.peek pa w = bytesLE w (match op with
              | .fetchAdd => old + a.toNat
              | .swap => a.toNat
              | .cas => if old = cmp.toNat % 2 ^ (8 * w) then a.toNat else old)
            ∧ t.rdata = bytesLE w old ∧ t.rpoison = false ∧ t.rur = false
            ∧ SameMemoryBut (fun b => pa ≤ b ∧ b < pa + w) s.toDev t.toDev ∧ SameCores s.toDev t.toDev))
        ∧ (sz = .w128 → Completes (.bar2Atomic off op sz a cmp) s (fun t =>
            t.rur = true ∧ SameMemory s.toDev t.toDev ∧ SameCores s.toDev t.toDev ∧ SameRegsBut [] s.toDev t.toDev)))
    ∧ (∀ (ch : ChanNo) (j : Fin 4) (e : DmaDesc), (s.chan ch).mayMove j = some e → dmaSrcHost e.w = true → Completes (.pcieCplTimeout (.dmaMove ch j)) s (fun t =>
        (t.chan ch).descs[j.val]? = some { e with status := 0x0B, reason := 1, ended := true, unacked := none }
        ∧ t.reg (aHif 0x114) = satAdd (s.reg (aHif 0x114)) 1 ∧ t.bit (aHif 0x10) 2 = true ∧ bitN t.cb.aer 14 = true
        ∧ (∀ a, t.peek1 a = s.peek1 a)
        ∧ (∀ a, ¬ (dmaOverlap e.w a = true ∧ ∃ m, m < dmaTotal e.w ∧ (dmaDstAt e.w m).1 = a) → cellAt t.hostMem a = cellAt s.hostMem a)
        ∧ SameChansBut ch s.toDev t.toDev ∧ SameCores s.toDev t.toDev))
    ∧ (∀ (ch : ChanNo), s.dmaMayFetch ch = true → s.dmaRingHost ch = true → Completes (.pcieCplTimeout (.dmaRing ch)) s (fun t =>
        (t.chan ch).st = .error ∧ (t.chan ch).errCode = 0x0B ∧ (t.chan ch).errIdx = (s.chan ch).fetch ∧ t.bit (aHif 0x10) 2 = true
        ∧ SameChansBut ch s.toDev t.toDev ∧ SameCores s.toDev t.toDev ∧ SameMemory s.toDev t.toDev))
    ∧ (∀ (q : QueueNo), s.cmdTakes = true → s.bit (aSq q 8) 31 = true → (s.sq q).st = .active ∨ (s.sq q).st = .stalled → (s.sq q).head ≠ (s.sq q).tail →
        s.sqHost q = true → Completes (.pcieCplTimeout (.sq q)) s (fun t =>
          (t.sq q).st = .error ∧ (t.sq q).err = 0x0B ∧ (t.sq q).head = (s.sq q).head ∧ t.bit (aHif 0x10) 2 = true
          ∧ SameCores s.toDev t.toDev ∧ SameMemory s.toDev t.toDev))
    ∧ Completes .flr s (fun t => InComputeReset 5 s.toDev t.toDev
        ∧ ∀ q : QueueNo, (t.sq q).st = .idle ∧ (t.sq q).err = 0 ∧ t.bit (aSq q 8) 31 = false ∧ (t.sq q).head = (s.sq q).head)

/-! ## Power -/

/-- The always-on tick counts, lets held gaps and the debug scope run down, counts the time in its state, and enters a deeper state when the device has been idle long enough, which with
A3 puts HBM into self-refresh (R378, R402, R407, R466). A read of AON_TICK_LO latches the high word (R434). A wake event in a deeper state records its cause
and starts the exit (R408), whose end is A0, the cores of A3 and A4 as reset with their memory being cleared and the stacks out of self-refresh (R409). -/
def Obligations.PowerStatesAndWakes : Prop :=
  ∀ (s : State),
    (s.pw.cur ≤ 4 → Completes .aonTick s (fun t =>
        let n := if s.isIdle = true then s.pw.idle + 1 else 0
        let down := s.isIdle = true ∧ s.pw.leaving = false ∧ s.pw.cur < s.powerTarget n
        t.tick = (s.tick + 1) % 2 ^ 64 ∧ t.tru.left = s.tru.left - 1
        ∧ t.cb.hold = s.cb.hold.map (fun h => if s.isGap h then { h with left := h.left - 1 } else h)
        ∧ t.reg (aPwr (0x150 + 4 * s.pw.cur)) = s.reg (aPwr (0x150 + 4 * s.pw.cur)) + 1
        ∧ t.pw.idle = n ∧ t.pw.leaving = s.pw.leaving
        ∧ (down → t.pw.cur = s.powerTarget n ∧ (s.pw.cur < 3 → 3 ≤ t.pw.cur → ∀ i, i < 16 → (t.stack i).selfRefresh = true))
        ∧ (¬ down → t.pw.cur = s.pw.cur ∧ SameMemory s.toDev t.toDev ∧ SameRegsBut [aPwr (0x150 + 4 * s.pw.cur), aPwr 0x10C] s.toDev t.toDev)
        ∧ SameCores s.toDev t.toDev))
    ∧ (s.serves (aAon 0x100) = true → Completes .aonTickRead s (fun t =>
        t.rdata = bytesLE 4 s.tick ∧ t.pw.tickHi = s.tick / 2 ^ 32 ∧ t.tick = s.tick
        ∧ SameRegsBut [] s.toDev t.toDev ∧ SameMemory s.toDev t.toDev ∧ SameCores s.toDev t.toDev))
    ∧ (∀ cause : Fin 8,
        (s.pw.cur ≠ 0 → s.pw.leaving = false → Completes (.wakeEvent cause) s (fun t =>
            t.pw.leaving = true ∧ t.pw.idle = 0 ∧ t.pw.cur = s.pw.cur ∧ t.reg (aAon 0x110) = BitVec.ofNat 32 (2 ^ cause.val)
            ∧ SameRegsBut [aAon 0x110] s.toDev t.toDev ∧ SameMemory s.toDev t.toDev ∧ SameCores s.toDev t.toDev))
        ∧ (s.pw.cur = 0 ∨ s.pw.leaving = true → Completes (.wakeEvent cause) s (fun t => t = s)))
    ∧ (s.reg (aAon 0x114) ≠ 0 → s.tick % 2 ^ 32 = (s.reg (aAon 0x114)).toNat → s.pw.cur ≠ 0 → s.pw.leaving = false → Completes .aonWakeTimer s (fun t =>
        t.pw.leaving = true ∧ t.reg (aAon 0x110) = 0x10
        ∧ SameRegsBut [aAon 0x110] s.toDev t.toDev ∧ SameMemory s.toDev t.toDev ∧ SameCores s.toDev t.toDev))
    ∧ (s.reg (aAon 0x114) = 0 ∨ s.tick % 2 ^ 32 ≠ (s.reg (aAon 0x114)).toNat → Completes .aonWakeTimer s (fun t => t = s))
    ∧ (∀ (bad : List StackNo) (lanes : List (BitVec 4)), s.pw.leaving = true → Completes (.stateExitDone bad lanes) s (fun t =>
        t.pw.cur = 0 ∧ t.pw.leaving = false ∧ t.pw.idle = 0
        ∧ (s.pw.cur < 3 → SameRegsBut [aPwr 0x10C] s.toDev t.toDev ∧ SameMemory s.toDev t.toDev ∧ SameCores s.toDev t.toDev)
        ∧ (3 ≤ s.pw.cur → (∀ i : StackNo, (t.stack i).selfRefresh = false ∧ (t.stack i).held = ((s.stack i).held || bad.contains i))
            ∧ ∀ c, c < 312 → (t.core c).clearing.isSome = true ∧ (t.core c).inReset = false ∧ (t.core c).x.st = .idle ∧ (t.core c).a.st = .idle)))

/-- The budget is 16 tokens per W of PWR_CAP less the reserve and the power of everything else, and the newest grants go while more than it stays granted, but for one made alone (R411, R415). The head request that fits is granted
(R414). A request that waits PWR_LEAVE_TMO ticks goes to the front, is counted and reported, and enough newest grants are revoked for it (R416). A plane whose edge has been idle for HOLD cycles returns its grant (R413). -/
def Obligations.LeaveArbiter : Prop :=
  ∀ (s : State),
    (∀ watts, let b := 16 * (10 * s.fld (aPwr 0x100) 7 0 - watts - s.fld (aPwr 0x110) 9 0)
        Completes (.leaveBudgetRecompute watts) s (fun t =>
          t.budget = b ∧ t.reg (aPwr 0x11C) = BitVec.ofNat 32 b ∧ t.reg (aPwr 0x124) = BitVec.ofNat 32 (watts % 4096)
          ∧ (t.kept ≤ b ∨ t.exempt = true)
          ∧ (s.kept ≤ b → t.grants = s.grants.map (fun g => { g with alone := false }) ∧ t.leaveQ = s.leaveQ ∧ t.pw = s.pw ∧ SameCores s.toDev t.toDev
              ∧ SameRegsBut [aPwr 0x11C, aPwr 0x124] s.toDev t.toDev)
          ∧ SameMemory s.toDev t.toDev))
    ∧ (∀ (r : LeaveReq) (l : List LeaveReq), s.leaveQ = r :: l → s.leaveFits r = true → Completes .leaveGrant s (fun t =>
        t.leaveQ = l ∧ t.grants = s.grants ++ [{ core := r.core, plane := r.plane, tokens := r.tokens, no := s.pw.grantNo, alone := r.alone }]
        ∧ t.pw.grantNo = s.pw.grantNo + 1 ∧ t.reg (aPwr 0x12C) = satAdd (s.reg (aPwr 0x12C)) 1
        ∧ ((t.core r.core).edge r.plane).tokens = ((s.core r.core).edge r.plane).tokens + r.tokens
        ∧ ((t.core r.core).edge r.plane).revoked = false ∧ ((t.core r.core).edge r.plane).paused = false
        ∧ SameCoresBut r.core s.toDev t.toDev ∧ SameRegsBut [aPwr 0x12C] s.toDev t.toDev ∧ SameMemory s.toDev t.toDev))
    ∧ (∀ (c : CoreNo) (p : PlaneNo) (r : LeaveReq), s.leaveQ.find? (fun x => x.core == c.val && x.plane == p.val) = some r → r.tmo = false →
        r.tick + s.fld (aPwr 0x114) 15 0 ≤ s.tick → Completes (.leaveTimeout c p) s (fun t =>
          t.bit (aPwr 0x10) 0 = true ∧ t.reg (aPwr 0x134) = satAdd (s.reg (aPwr 0x134)) 1 ∧ t.reg (aPwr 0x138) = BitVec.ofNat 32 (p.val * 4096 + c.val)
          ∧ { r with tmo := true, alone := decide (s.budget < r.tokens) } ∈ t.leaveQ ∧ t.kept ≤ s.budget - r.tokens ∧ t.budget = s.budget
          ∧ SameMemory s.toDev t.toDev))
    ∧ (∀ (c : CoreNo) (p : PlaneNo), ((s.core c).edge p).tokens ≠ 0 → ((s.core c).edge p).revoked = false → (∀ x ∈ subPlanes p, (s.core c).injecting x = none) →
        ((s.core c).edge p).busyAt + s.fld (aPwr 0x108) 31 16 ≤ s.cycle → Completes (.leaveReturn c p) s (fun t =>
          t.core c = (s.core c).setEdge p { ((s.core c).edge p) with tokens := 0 }
          ∧ t.grants = s.grants.filter (fun g => !(g.core == c.val && g.plane == p.val)) ∧ t.leaveQ = s.leaveQ
          ∧ SameCoresBut c s.toDev t.toDev ∧ SameRegsBut [] s.toDev t.toDev ∧ SameMemory s.toDev t.toDev))

/-- The clock goes a step down when the average passes PWR_CAP or a sensor reaches TEMP_LIM, and VDD_ARR follows it when the regulator acknowledges; at the lowest step pacing follows the average; it goes a step up, after the voltage, once the causes are gone (R403, R417, R475). THERM_CRIT gates every fast clock
until 10 °C below TEMP_LIM (R417). A droop is counted (R418). A reference clock's loss and return show in CLK_STAT, AON_STAT and ERR_STAT (R402, R434). A PLL that loses lock is counted, and brings a compute reset, a retrain of its die's ports, or a PCIe retrain (R404). -/
def Obligations.ClocksAndTemperature : Prop :=
  ∀ (s : State),
    let rest (l : List Nat) (t : State) : Prop := SameRegsBut l s.toDev t.toDev ∧ SameMemory s.toDev t.toDev ∧ SameCores s.toDev t.toDev
    let down (t : State) (ack : Bool) : Prop := t.clkStep = s.clkStep + 1 ∧ t.reg (aClk 0x108) = satAdd (s.reg (aClk 0x108)) 1 ∧ t.pw.vid = (if ack then s.clkStep + 1 else s.pw.vid)
    (∀ avg ack, Completes (.capClockStep avg ack) s (fun t =>
        t.reg (aPwr 0x128) = BitVec.ofNat 32 (avg % 4096)
        ∧ (s.capW < avg → s.clkStep < 8 → down t ack ∧ t.bit (aPwr 0x10) 1 = true)
        ∧ (avg ≤ s.capW ∨ 8 ≤ s.clkStep → t.clkStep = s.clkStep ∧ t.pw = s.pw ∧ t.reg (aPwr 0x10) = s.reg (aPwr 0x10))
        ∧ rest [aPwr 0x128, aClk 0x104, aClk 0x108, aPwr 0x10] t))
    ∧ (∀ avg, Completes (.paceStep avg) s (fun t =>
        t.reg (aPwr 0x128) = BitVec.ofNat 32 (avg % 4096)
        ∧ (s.capW < avg → s.clkStep = 8 → s.pw.pace < 15 → t.pw.pace = s.pw.pace + 1 ∧ t.bit (aPwr 0x10) 5 = true)
        ∧ (s.capW < avg → s.clkStep < 8 → t.pw = s.pw) ∧ (avg ≤ s.capW → t.pw = { s.pw with pace := s.pw.pace - 1 })
        ∧ rest [aPwr 0x128, aPwr 0x10] t))
    ∧ (∀ temp ack, Completes (.tempLimit temp ack) s (fun t =>
        t.owl.die = temp ∧ (s.tempLim ≤ temp → t.bit (aPwr 0x10) 2 = true) ∧ (s.tempLim ≤ temp → s.clkStep < 8 → down t ack)
        ∧ (temp < s.tempLim ∨ 8 ≤ s.clkStep → t.clkStep = s.clkStep ∧ t.pw = s.pw) ∧ rest [aClk 0x104, aClk 0x108, aPwr 0x10] t))
    ∧ (∀ temp, Completes (.thermCrit temp) s (fun t =>
        (s.fld (aPwr 0x118) 15 8 ≤ temp → t.pw.therm = true ∧ t.clockOn = false ∧ t.bit (aPwr 0x10) 3 = true) ∧ (temp < s.fld (aPwr 0x118) 15 8 → t.pw = s.pw)
        ∧ rest [aPwr 0x10] t))
    ∧ (∀ temp, Completes (.thermCritRelease temp) s (fun t =>
        t.pw = (if temp + 10 ≤ s.tempLim then { s.pw with therm := false } else s.pw) ∧ rest [] t))
    ∧ Completes .vddDroop s (fun t => t.reg (aPwr 0x13C) = satAdd (s.reg (aPwr 0x13C)) 1 ∧ t.bit (aPwr 0x10) 4 = true
        ∧ t.owl.ev.getD 8 0 = s.owl.ev.getD 8 0 + (if s.bit (aOwl 0x100) 31 then 1 else 0) ∧ t.pw = s.pw ∧ rest [aPwr 0x13C, aPwr 0x10] t)
    ∧ (∀ avg temp ack, Completes (.clockStepUp avg temp ack) s (fun t =>
        let up := s.clkStep ≠ 0 ∧ s.pw.pace = 0 ∧ avg ≤ s.capW ∧ temp < s.tempLim ∧ ack = true
        t.owl.die = temp ∧ (up → t.clkStep = s.clkStep - 1 ∧ t.pw.vid = s.clkStep - 1 ∧ t.reg (aClk 0x108) = satAdd (s.reg (aClk 0x108)) 1)
        ∧ (¬ up → t.clkStep = s.clkStep ∧ t.pw = s.pw) ∧ rest [aPwr 0x128, aClk 0x104, aClk 0x108] t))
    ∧ (∀ slp, Completes (.refclkLoss slp) s (fun t =>
        t.bit (aClk 0x10) 1 = true ∧ t.bit (aClk 0x100) (if slp then 9 else 8) = false ∧ (slp = false → t.bit (aAon 0x108) 0 = false)
        ∧ rest (if slp then [aClk 0x10, aClk 0x100] else [aClk 0x10, aClk 0x100, aAon 0x108]) t))
    ∧ (∀ slp drift, Completes (.refclkReturn slp drift) s (fun t =>
        t.bit (aClk 0x100) (if slp then 9 else 8) = true ∧ (slp = false → t.bit (aAon 0x108) 0 = true ∧ (drift = true → t.bit (aAon 0x10) 0 = true))
        ∧ rest (if slp then [aClk 0x100] else [aClk 0x100, aAon 0x108, aAon 0x10]) t))
    ∧ (∀ (die : Fin 2) (p : Pll), p = .main die ∨ p = .mem die → Completes (.pllLockLoss p) s (fun t =>
        t.reg (aClk 0x10C) = satAdd (s.reg (aClk 0x10C)) 1 ∧ t.bit (aClk 0x10) 0 = true ∧ t.bit (aRst 0x10) 1 = true ∧ t.bit (aRst 0x10C) 0 = true
        ∧ (s.bit (aRst 0x10C) 0 = false → InComputeReset 6 s.toDev t.toDev)))
    ∧ (∀ die : Fin 2, Completes (.pllLockLoss (.sloer die)) s (fun t =>
        t.reg (aClk 0x10C) = satAdd (s.reg (aClk 0x10C)) 1
        ∧ (∀ p : PortNo, (p.val / 12 = die.val ∧ (s.port p).up = true → (t.port p).up = false ∧ (t.port p).training = true)
            ∧ (p.val / 12 ≠ die.val ∨ (s.port p).up = false → t.port p = s.port p))
        ∧ SameMemory s.toDev t.toDev ∧ SameCores s.toDev t.toDev))
    ∧ Completes (.pllLockLoss .pcie) s (fun t => t.reg (aClk 0x10C) = satAdd (s.reg (aClk 0x10C)) 1 ∧ t.reg (aHif 0x11C) = satAdd (s.reg (aHif 0x11C)) 1
        ∧ rest [aClk 0x10C, aHif 0x11C] t)

/-! ## Resets -/

/-- The five resets and what each keeps (R420–R423): cold reset by power-on, PERST_N or a rail fault of more than 20 µs, which holds it until RAIL_RECOVERY (R477); warm reset by RST_CTRL with its key or a hot reset; compute reset by RST_CTRL with its key, one at a time, ended by
COMPUTE_RESET_DONE and counted; job reset, which takes the job's cores out of it, resets them, ends its commands and clears its gate; core reset, which leaves every other core alone. What memory reads as after a cold reset is the model's choice (log entry 4). -/
def Obligations.ResetsAndWhatTheyKeep : Prop :=
  ∀ (s : State),
    (∀ perst, Completes (.coldReset perst) s (fun t => AfterCold (if perst then 1 else 0) s.toDev t.toDev ∧ t.pw.railHold = false))
    ∧ (∀ rail us, Completes (.railFault rail us) s (fun t =>
        (rail = .aon → AfterCold 0 s.toDev t.toDev) ∧ (rail = .other → 20 < us → AfterCold 0 s.toDev t.toDev ∧ t.pw.railHold = true)
        ∧ (rail = .io ∨ rail = .other ∧ us ≤ 20 → t = s)))
    ∧ (∀ us perst, Completes (.railRecovery us perst) s (fun t =>
        t.pw = (if perst = true ∧ 1000 ≤ us then { s.pw with railHold := false } else s.pw)
        ∧ SameRegsBut [] s.toDev t.toDev ∧ SameMemory s.toDev t.toDev ∧ SameCores s.toDev t.toDev))
    ∧ (s.pw.railHold = false → Completes .pcieHotReset s (fun t => AfterWarm 3 s.toDev t.toDev))
    ∧ (∀ key : Word, s.serves (aRst 0x100) = true →
        (Machine.fld key 15 0 = 0xA5C3 → Completes (.warmReset key) s (fun t => AfterWarm 2 s.toDev t.toDev))
        ∧ (Machine.fld key 15 0 ≠ 0xA5C3 → Completes (.warmReset key) s (fun t => t = s))
        ∧ (Machine.fld key 15 0 = 0xA5C3 → s.bit (aRst 0x10C) 0 = false → Completes (.computeReset key) s (fun t => InComputeReset 4 s.toDev t.toDev))
        ∧ (Machine.fld key 15 0 ≠ 0xA5C3 ∨ s.bit (aRst 0x10C) 0 = true → Completes (.computeReset key) s (fun t => t = s)))
    ∧ (s.bit (aRst 0x10C) 0 = true → Completes .computeResetDone s (fun t =>
        t.fld (aRst 0x10C) 2 0 = 0 ∧ t.reg (aRst 0x110) = satAdd (s.reg (aRst 0x110)) 1 ∧ (∀ c, t.core c = { (s.core c) with inReset := false })
        ∧ SameRegsBut [aRst 0x10C, aRst 0x110] s.toDev t.toDev ∧ SameMemory s.toDev t.toDev))
    ∧ (s.bit (aRst 0x10C) 0 = false → Completes .computeResetDone s (fun t => t = s))
    ∧ (∀ n : JobNo, s.serves (aRst 0x108) = true →
        (s.bit (aRst 0x10C) 0 = false → s.pw.jobRst.contains n.val = false → Completes (.rstJob n) s (fun t =>
            t.bit (aRst 0x10C) 1 = true ∧ n.val ∈ t.pw.jobRst
            ∧ (∀ c, (s.core c).job = some n.val → (t.core c).job = none ∧ (t.core c).inReset = true ∧ (t.core c).clearing.isSome = true
                ∧ (t.core c).x.st = .idle ∧ (t.core c).a.st = .idle)
            ∧ (∀ x, (s.strm x).job = some n.val → (t.strm x).st.terminal = true)
            ∧ t.reg (aStepJ n 0x1C) = 0 ∧ t.reg (aStepJ n 0x18) = 0 ∧ t.reg (aOwlJ (0x200 + 4 * n)) = 0x1FF))
        ∧ (s.bit (aRst 0x10C) 0 = true ∨ s.pw.jobRst.contains n.val = true → Completes (.rstJob n) s (fun t => t = s)))
    ∧ (∀ n : JobNo, Completes (.jobResetDone n) s (fun t =>
        t.pw.jobRst = s.pw.jobRst.filter (fun x => x != n.val) ∧ t.bit (aRst 0x10C) 1 = !t.pw.jobRst.isEmpty
        ∧ SameRegsBut [aRst 0x10C] s.toDev t.toDev ∧ SameMemory s.toDev t.toDev ∧ SameCores s.toDev t.toDev))
    ∧ (∀ c : CoreNo, s.serves (aRst 0x104) = true →
        (s.bit (aRst 0x10C) 0 = false → (s.core c).inReset = false → Completes (.rstCore c) s (fun t =>
            (t.core c).inReset = true ∧ (t.core c).job = (s.core c).job ∧ (t.core c).x.st = .idle ∧ (t.core c).a.st = .idle ∧ (t.core c).flags = 0
            ∧ (∀ key, (t.core c).slot key = {}) ∧ (∀ q, (t.core c).queue q = [])
            ∧ (∀ off, off < 0x4000 → coreKept c (aCctl c off) = false → off ≠ 8 → t.reg (aCctl c off) = resetVal (aCctl c off))
            ∧ t.bit (aRst 0x10C) 2 = true ∧ SameCoresBut c s.toDev t.toDev ∧ SameMemory s.toDev t.toDev))
        ∧ (s.bit (aRst 0x10C) 0 = true ∨ (s.core c).inReset = true → Completes (.rstCore c) s (fun t => t = s)))
    ∧ (∀ c : CoreNo, s.bit (aRst 0x10C) 0 = false → Completes (.coreResetDone c) s (fun t =>
        t.core c = { (s.core c) with inReset := false } ∧ SameCoresBut c s.toDev t.toDev ∧ SameMemory s.toDev t.toDev ∧ SameRegsBut [aRst 0x10C] s.toDev t.toDev))

/-! ## Boot and firmware -/

/-- The boot's stages (R435): fuses, TRNG and PLLs, failing twice into HALT (R437); the PCIe link and the manifest with both signatures, or RECOVERY_WAIT with its code (R441); the two firmwares by their digests; self-test, bridge, stacks, ports and trees (R226, R447, R458); the core image with
at most eight rounds of missing chunks a core (R444, R445); the ports' qualification (R448); the peers' identities (R462, R463); the floor plan, READY and its time (R18–R22, R437). -/
def Obligations.BootStages : Prop :=
  ∀ (s : State), s.clockOn = true →
    let fails (code : Nat) (t : State) : Prop := t.stage = 0xE ∧ t.fld (aFwl 0x100) 15 8 = code ∧ t.bit (aFwl 0x10) 4 = true
    let comps (l : List Nat) : List FwComp := l.filterMap (fun n => s.fw.man.bind (fun m => m.comp n))
    (∀ trng, s.fw.fuseOk = false → s.stage ≤ 1 →
        Completes (.bootFuse true trng) s (fun t => t.stage = 1 ∧ t.fw.fuseOk = true ∧ t.tru.trngOk = trng ∧ (trng = false → t.bit (aTru 0x10) 1 = true)
          ∧ t.reg (aClk 0x100) = 0x37F ∧ t.bit (aAon 0x108) 0 = true ∧ (∀ c, c < 312 → (t.core c).clearing.isSome = true) ∧ SameMemory s.toDev t.toDev)
        ∧ Completes (.bootFuse false trng) s (fun t => t.stage = (if 1 ≤ s.fw.fuseFails then 0xF else 1) ∧ t.fw.fuseOk = false ∧ t.fw.fuseFails = s.fw.fuseFails + 1
          ∧ t.bit (aTru 0x10) 4 = true ∧ SameMemory s.toDev t.toDev ∧ SameCores s.toDev t.toDev))
    ∧ (∀ (flash : Bool) (bad : List (Fin 256)) (x : PcieUp), s.fw.fuseOk = true → s.stage = 1 → Completes (.bootManifest flash bad x) s (fun t =>
        let l := s.flashImage 16384
        t.cb.up = x.flit ∧ t.cb.bme = (x.flit && x.bme) ∧ t.cb.aerMask = x.aerMask.toNat
        ∧ (s.fw.recover = true → t.stage = 0xE ∧ t.bit (aFwl 0x10) 4 = true ∧ t.fw.recover = false)
        ∧ (s.fw.recover = false → flash = false → fails 0x09 t ∧ t.bit (aFwl 0x10) 2 = true)
        ∧ (s.fw.recover = false → flash = true → s.manifestBad l = some .sig → fails 0x15 t ∧ t.bit (aFwl 0x10) 0 = true)
        ∧ (s.fw.recover = false → flash = true → s.manifestBad l = some .form → t.stage = 0xE ∧ t.bit (aFwl 0x10) 4 = true)
        ∧ (s.fw.recover = false → flash = true → s.manifestBad l = none → t.stage = 2 ∧ t.fw.man = some (parseManifest l) ∧ t.bit (aFwl 0x100) 29 = true
            ∧ t.reg (aFwl 0x108) = BitVec.ofNat 32 (parseManifest l).version)
        ∧ SameMemory s.toDev t.toDev ∧ SameCores s.toDev t.toDev))
    ∧ (∀ flash, s.stage = 2 → s.fw.man.isSome = true → Completes (.bootMpLoad flash) s (fun t =>
        (flash = true ∨ s.fw.pushed = true → (comps [1, 2]).all (compOk s.bootImage) = true → t.stage = 3)
        ∧ (flash = true ∨ s.fw.pushed = true → (comps [1, 2]).all (compOk s.bootImage) = false → fails 0x15 t)
        ∧ (flash = false → s.fw.pushed = false → fails 0x09 t) ∧ SameMemory s.toDev t.toDev ∧ SameCores s.toDev t.toDev))
    ∧ (∀ x : TrainFacts, s.stage = 3 → Completes (.bootTrain x) s (fun t =>
        (∀ c, c ∈ t.fw.badCores ↔ c ∈ x.cores) ∧ (∀ i : StackNo, (t.stack i).held = x.stackT.contains i.val ∧ (t.stack i).trained = !x.stackT.contains i.val)
        ∧ (∀ p : PortNo, (t.port p).up = false ∧ (t.port p).training = true)
        ∧ (∀ (die : Fin 2) (r : Nat), r < 12 → let f := (x.wires.getD die []).getD r (0, 0)
            t.bit (aBrg die 0x100) (16 + r) = decide (16 < f.1 ∨ 16 < f.2))
        ∧ (x.flash = true ∨ s.fw.pushed = true → (comps [3, 4, 5]).all (compOk s.bootImage) = true → t.stage = 4
            ∧ (if Config.cacheRootOk s.idCache = true ∧ Config.cacheNodeOk s.idCache (s.tru.leaf / 1024) = true then t.tru.idOk = true else t.tru.cacheBad = true ∧ t.bit (aTru 0x10) 2 = true))
        ∧ (x.flash = true ∨ s.fw.pushed = true → (comps [3, 4, 5]).all (compOk s.bootImage) = false → fails 0x15 t)
        ∧ (x.flash = false → s.fw.pushed = false → fails 0x09 t) ∧ SameMemory s.toDev t.toDev ∧ SameCores s.toDev t.toDev))
    ∧ (∀ miss : List (CoreNo × Nat), s.stage = 4 → Completes (.bootCoreLoad miss) s (fun t =>
        t.stage = 5 ∧ (∀ c : CoreNo, c.val ∉ s.fw.badCores →
          let l := (miss.filter (fun p => p.1 == c)).map (fun p => p.2)
          (l = [] → t.bit (aFwl (0x140 + c / 32 * 4)) (c % 32) = true) ∧ (l ≠ [] → Tbl.look t.fw.missing c = some l ∧ Tbl.look t.fw.rounds c = some 0))
        ∧ SameMemory s.toDev t.toDev ∧ SameCores s.toDev t.toDev))
    ∧ (∀ (c : CoreNo) (bad l : List Nat), Tbl.look s.fw.missing c = some l → Completes (.chunkResendRound c bad) s (fun t =>
        let left := l.filter (fun k => bad.contains k)
        let n := s.fw.rounds.getD c 0 + 1
        t.reg (aFwl 0x128) = satAdd (s.reg (aFwl 0x128)) l.length
        ∧ (left = [] → t.bit (aFwl (0x140 + c / 32 * 4)) (c % 32) = true ∧ Tbl.look t.fw.missing c = none)
        ∧ (left ≠ [] → n < 8 → Tbl.look t.fw.missing c = some left ∧ Tbl.look t.fw.rounds c = some n)
        ∧ (left ≠ [] → 8 ≤ n → Tbl.look t.fw.missing c = none ∧ c.val ∈ t.fw.badCores ∧ t.reg (aFwl 0x124) = satAdd (s.reg (aFwl 0x124)) 1 ∧ t.bit (aFwl 0x10) 1 = true)
        ∧ SameMemory s.toDev t.toDev ∧ SameCoresBut c s.toDev t.toDev))
    ∧ (∀ tests : List LaneTest, s.stage = 5 → s.fw.missing = [] → Completes (.bootQualify tests) s (fun t =>
        let m (p : Nat) : Nat := ((List.range 4).filter (fun i => bitN (s.fw.lanes.getD p 0) i && ((tests[4 * p + i]?).map LaneTest.pass).getD true)).foldl (fun n i => n + 2 ^ i) 0
        t.stage = 6 ∧ ∀ p : PortNo, (s.minWidth p ≤ laneWidth (m p) → (t.port p).up = true ∧ (t.port p).lanes = m p ∧ (t.port p).width = laneWidth (m p))
          ∧ (laneWidth (m p) < s.minWidth p → (t.port p).up = false ∧ (t.port p).held = true ∧ t.bit (aSlp p 0x10) 2 = true)))
    ∧ (∀ (p : PortNo) (x : PeerId), 6 ≤ s.stage → s.stage ≤ 8 → (s.port p).up = true → Completes (.bootPeer p x) s (fun t =>
        let nonce := (List.range 8).flatMap (fun i => bytesLE 4 (Config.trng (s.tru.rng + i)).toNat)
        let key := [0, 0, 0, 2] ++ padTo 56 0 (Config.lmsPublic 0)
        t.stage = (if s.stage = 6 then 7 else s.stage)
        ∧ (s.peerOk p x nonce key = true → p.val ∈ t.fw.peers ∧ t.reg (aTruP (0x100 + 0x10 * p)) = BitVec.ofNat 32 (keyTag x.key))
        ∧ (s.peerOk p x nonce key = false → t.bit (aTru 0x10) 0 = true ∧ t.fw.peers = s.fw.peers ∧ (s.policy 0 = true → (t.port p).up = false ∧ (t.port p).held = true))))
    ∧ (s.stage = 6 ∨ s.stage = 7 → Completes .bootReady s (fun t =>
        let good (c : Nat) : List Nat := (dieRow c).filter (fun x => !s.fw.badCores.contains x)
        t.stage = 8 ∧ t.ready = true ∧ t.reg (aFwl 0x104) = BitVec.ofNat 32 (s.tick - s.fw.bootT)
        ∧ (∀ c, c < 312 → t.fpState c = (if s.fw.badCores.contains c then 2 else if (good c).idxOf c < 12 then 0 else 1))
        ∧ (∀ i k, i < 24 → k < 12 → t.physOf (rowFirst (13 * i) + k) = ((dieRow (13 * i)).filter (fun x => t.fpState x == 0))[k]?)
        ∧ t.bit (aFp 0x10C) 0 = true ∧ SameMemory s.toDev t.toDev ∧ SameCores s.toDev t.toDev))

/-- The FWL commands (R441, R443, R450–R453, R468): chunks of the data window and HBM fill the staging memory; VERIFY sets VERIFIED or gives its code; WRITE_FLASH erases and, when done, holds the staged image; ACTIVATE goes on with a boot that waits, or replaces the manifest and makes the cores due; a due core outside every job is loaded again;
FORCE_RECOVERY, WRITE_IDCACHE and ABORT; a command while BUSY is ignored with CMD_BAD. -/
def Obligations.FirmwareCommands : Prop :=
  ∀ (s : State),
    let rest (l : List Nat) (t : State) : Prop := SameRegsBut l s.toDev t.toDev ∧ SameMemory s.toDev t.toDev ∧ SameCores s.toDev t.toDev
    let ends (t : State) (op result : Nat) : Prop := t.fld (aFwl 0x114) 3 0 = op ∧ t.fld (aFwl 0x114) 15 8 = result
    let l := s.stageImage s.stageLen
    (s.serves (aFwl 0x110) = true → s.fw.writing = true → ∀ i : Instr, i ∈ [Instr.stageHbm, .verify, .writeFlash, .activate, .forceRecovery, .writeIdcache, .abort] ∨ (∃ n, i = .stageChunk n) →
        Completes i s (fun t => t.bit (aFwl 0x10) 3 = true ∧ t.fw = s.fw ∧ rest [aFwl 0x10] t))
    ∧ (s.serves (aFwl 0x110) = true → s.fw.writing = false →
        (∀ n : Fin 1024, Completes (.stageChunk n) s (fun t =>
            (∀ k, k < 4096 → cellAt t.fw.stage (4096 * n.val + k) = cellAt s.fw.window k) ∧ (∀ a, a < 4096 * n.val ∨ 4096 * n.val + 4096 ≤ a → cellAt t.fw.stage a = cellAt s.fw.stage a)
            ∧ t.fw.verified = false ∧ ends t 1 0 ∧ rest [aFwl 0x114] t))
        ∧ (4194304 < s.stageLen → Completes .stageHbm s (fun t => ends t 2 0x03 ∧ t.fw.stage = s.fw.stage ∧ rest [aFwl 0x114] t))
        ∧ (s.stageLen ≤ 4194304 → let pa := s.addr48 (aFwl 0x11C) (aFwl 0x120) 12
            s.soundRange pa s.stageLen → Completes .stageHbm s (fun t =>
              (s.peekPoisonN pa s.stageLen = false → ends t 2 0 ∧ (∀ k, k < s.stageLen → cellAt t.fw.stage k = s.peek1 (pa + k)) ∧ ∀ a, s.stageLen ≤ a → cellAt t.fw.stage a = cellAt s.fw.stage a)
              ∧ (s.peekPoisonN pa s.stageLen = true → ends t 2 0x09 ∧ t.fw.stage = s.fw.stage)
              ∧ t.fw.verified = false ∧ (∀ a, t.peek1 a = s.peek1 a) ∧ SameCores s.toDev t.toDev))
        ∧ Completes .verify s (fun t =>
            (s.stageBad = none → t.fw.verified = true ∧ ends t 3 0 ∧ t.bit (aFwl 0x114) 30 = true) ∧ (s.stageBad = some .sig → ends t 3 0x15)
            ∧ (s.stageBad ≠ none → t.fw.verified = false ∧ t.bit (aFwl 0x114) 30 = false) ∧ t.fw.stage = s.fw.stage ∧ rest [aFwl 0x114] t)
        ∧ Completes .writeFlash s (fun t =>
            (s.fw.verified = false → ends t 4 0x03 ∧ t.fw = s.fw)
            ∧ (s.fw.verified = true → ends t 4 0 ∧ t.fw.writing = true ∧ t.bit (aFwl 0x114) 31 = true ∧ t.bit (aFwl 0x100) 29 = false
                ∧ (∀ a, a < 0x400000 → t.flashAt a = 0xFF) ∧ (∀ a, 0x400000 ≤ a → t.flashAt a = s.flashAt a))
            ∧ SameMemory s.toDev t.toDev ∧ SameCores s.toDev t.toDev)
        ∧ Completes .activate s (fun t =>
            (s.fw.verified = false → ends t 5 0x03 ∧ t.fw = s.fw)
            ∧ (s.fw.verified = true → ends t 5 0 ∧ t.fw.man = some (parseManifest l) ∧ t.reg (aFwl 0x108) = BitVec.ofNat 32 (parseManifest l).version)
            ∧ (s.fw.verified = true → s.stage = 0xE → t.stage = 2 ∧ t.fw.pushed = true ∧ t.bit (aFwl 0x100) 30 = true)
            ∧ (s.fw.verified = true → s.stage ≠ 0xE → t.stage = s.stage
                ∧ (3 ∈ changedComps s.fw.man (parseManifest l) → ∀ c : CoreNo, (c.val ∈ t.fw.coresDue ↔ s.fenced c = false) ∧ t.bit (aFwl (0x140 + c / 32 * 4)) (c % 32) = false))
            ∧ SameMemory s.toDev t.toDev ∧ SameCores s.toDev t.toDev)
        ∧ Completes .forceRecovery s (fun t => t.fw = { s.fw with recover := true } ∧ ends t 6 0 ∧ rest [aFwl 0x114] t)
        ∧ Completes .writeIdcache s (fun t =>
            (Config.cacheRootOk (s.stageImage 65504) = true → ends t 7 0 ∧ ∀ k, k < 65504 → t.flashAt (0x400000 + k) = cellAt s.fw.stage k)
            ∧ (Config.cacheRootOk (s.stageImage 65504) = false → ends t 7 0x15 ∧ t.fw = s.fw)
            ∧ (∀ a, a < 0x400000 → t.flashAt a = s.flashAt a) ∧ SameMemory s.toDev t.toDev ∧ SameCores s.toDev t.toDev)
        ∧ Completes .abort s (fun t => t.fw = { s.fw with stage := [], verified := false } ∧ ends t 8 0 ∧ rest [aFwl 0x114] t))
    ∧ (s.pw.railHold = false → s.fw.writing = true →
        Completes (.flashWriteDone true) s (fun t => t.fw.writing = false ∧ ends t 4 0 ∧ t.bit (aFwl 0x100) 29 = true
          ∧ (∀ k, k < s.stageLen → t.flashAt k = cellAt s.fw.stage k) ∧ (∀ a, s.stageLen ≤ a → t.flashAt a = s.flashAt a) ∧ rest [aFwl 0x114, aFwl 0x100] t)
        ∧ Completes (.flashWriteDone false) s (fun t => t.fw = { s.fw with writing := false } ∧ ends t 4 0x09 ∧ t.bit (aFwl 0x10) 2 = true ∧ rest [aFwl 0x114, aFwl 0x10] t))
    ∧ (∀ (c : CoreNo) (miss : List Nat), s.clockOn = true → s.fw.coresDue.contains c.val = true → (s.core c).job = none → s.fenced c = false → allCores.any s.loading = false →
        Completes (.coreImageReload c miss) s (fun t =>
          (miss = [] → t.bit (aFwl (0x140 + c / 32 * 4)) (c % 32) = true ∧ t.fw.coresDue = s.fw.coresDue.filter (fun x => x != c.val)
              ∧ t.reg (aFwl 0x12C) = BitVec.ofNat 32 t.fw.coresDue.length)
          ∧ (miss ≠ [] → t.loading c = true ∧ Tbl.look t.fw.missing c = some miss ∧ t.fw.coresDue = s.fw.coresDue)
          ∧ SameMemory s.toDev t.toDev ∧ SameCores s.toDev t.toDev))

/-! ## Trust -/

/-- The TRU commands (R456, R460, R461, R465–R467): a quote is the signed body in the buffer and takes a session leaf; EXTEND hashes the buffer into a register from 8 on; a challenge leaves its nonce in the buffer; a valid token opens its scope, FULL erasing the trees, and the scope closes by command or when its time is over, with the JTAG instruction that it opened (log entry 140);
the first owner key needs no signature, a later one is signed by its predecessor, which it revokes. Every end stands in TRU_CMD_STAT. The buffer is HBM that serves it at once. The signatures are opaque (log entry 2). -/
def Obligations.TrustCommands : Prop :=
  ∀ (s : State),
    let ends (t : State) (op result : Nat) : Prop := t.reg (aTru 0x120) = BitVec.ofNat 32 (result * 256 + op) ∧ (result = 0x15 → t.bit (aTru 0x10) 0 = true)
    let buf (n : Nat) : List Byte := s.peek s.truBuf n
    let reads (n : Nat) : Prop := s.soundRange s.truBuf n
    let bad (n : Nat) : Bool := s.peekPoisonN s.truBuf n
    let keeps (t : State) : Prop := (∀ a, t.peek1 a = s.peek1 a) ∧ SameCores s.toDev t.toDev
    (s.serves (aTru 0x11C) = true →
        (s.tru.erased = true → Completes .quote s (fun t => ends t 1 0x15 ∧ keeps t))
        ∧ (s.tru.erased = false → reads 32 → bad 32 = true → Completes .quote s (fun t => ends t 1 0x01 ∧ keeps t))
        ∧ (∀ k, s.tru.erased = false → s.servesRange s.truBuf 5988 → bad 32 = false → s.tru.sess = some k → Completes .quote s (fun t =>
            let body := s.showTru.quoteBody (buf 32)
            let pub := padTo 56 0 (Config.lmsPublic (k + 1))
            t.peek s.truBuf 5988 = body ++ [0, 0, 0, 1] ++ padTo 2828 0 (Config.lmsSign 0 s.tru.sessRoot pub) ++ pub ++ padTo 2508 0 (Config.lmsSign (k + 1) s.tru.sessLeaf body)
            ∧ (s.tru.sessLeaf < 1023 → t.tru.sessLeaf = s.tru.sessLeaf + 1) ∧ ends t 1 0
            ∧ SameMemoryBut (fun a => s.truBuf ≤ a ∧ a < s.truBuf + 5988) s.toDev t.toDev ∧ SameCores s.toDev t.toDev))
        ∧ (∀ m : Fin 16, m.val < 8 → Completes (.extend m) s (fun t => ends t 2 0x03 ∧ (∀ n, n < 16 → t.meas n = s.meas n) ∧ keeps t))
        ∧ (∀ m : Fin 16, 8 ≤ m.val → reads 32 → Completes (.extend m) s (fun t =>
            (bad 32 = true → ends t 2 0x01 ∧ t.meas m = s.meas m) ∧ (bad 32 = false → ends t 2 0 ∧ t.meas m = sha256 (s.meas m ++ buf 32))
            ∧ (∀ n, n < 16 → n ≠ m.val → t.meas n = s.meas n) ∧ keeps t))
        ∧ (s.servesRange s.truBuf 32 → Completes .debugChallenge s (fun t => ∃ n, n.length = 32 ∧ t.tru.nonce = some n ∧ t.peek s.truBuf 32 = n ∧ ends t 3 0
            ∧ SameMemoryBut (fun a => s.truBuf ≤ a ∧ a < s.truBuf + 32) s.toDev t.toDev ∧ SameCores s.toDev t.toDev))
        ∧ (reads 16384 → Completes .debugUnlock s (fun t =>
            let sc := ofBytesLE (((buf 16384).drop 4).take 4)
            (bad 16384 = true → ends t 4 0x01 ∧ t.tru = s.tru) ∧ (bad 16384 = false → s.tokenOk (buf 16384) = false → ends t 4 0x15 ∧ t.tru = s.tru)
            ∧ (bad 16384 = false → s.tokenOk (buf 16384) = true → ends t 4 0 ∧ t.tru.scope = sc ∧ t.tru.left = ofBytesLE (((buf 16384).drop 48).take 4)
                ∧ t.tru.erased = (s.tru.erased || decide (sc = 3)) ∧ (sc = 3 → t.tru.idOk = false ∧ t.tru.sess = none))
            ∧ keeps t))
        ∧ (∀ op : JtagOp, (s.tru.jtagSelect op).tap = (if op.scope = 0 ∨ s.tru.scope = op.scope ∨ (s.tru.scope = 3 ∧ op.scope = 2) then op else s.tru.tap))
        ∧ Completes .debugLock s (fun t => ends t 7 0 ∧ t.tru.scope = 0 ∧ (s.tru.scope ≠ 0 → t.tru.left = 0 ∧ t.tru.tap.scope = 0) ∧ keeps t)
        ∧ (reads 16384 → Completes .setOwner s (fun t =>
            let b := buf 16384
            let dig := sha256 (b.take 60)
            let k := s.tru.slot
            (bad 16384 = true → ends t 5 0x01 ∧ t.tru = s.tru)
            ∧ (bad 16384 = false → k = 4 → Tbl.look s.tru.owner 0 = none → ends t 5 0 ∧ Tbl.look t.tru.owner 0 = some dig ∧ t.tru.revoked = s.tru.revoked)
            ∧ (bad 16384 = false → k < 3 → Config.lmsVerify s.tru.ownerKey (b.drop 60) dig = true → ends t 5 0 ∧ Tbl.look t.tru.owner (k + 1) = some dig ∧ k ∈ t.tru.revoked)
            ∧ (bad 16384 = false → k = 3 ∨ k < 3 ∧ Config.lmsVerify s.tru.ownerKey (b.drop 60) dig = false → ends t 5 0x15 ∧ t.tru = s.tru)
            ∧ keeps t)))
    ∧ (s.pw.railHold = false → Completes .debugExpire s (fun t =>
        (s.tru.scope ≠ 0 → s.tru.left = 0 → t.tru = { s.tru with scope := 0, tap := if s.tru.tap.scope = 0 then s.tru.tap else .idcode }) ∧ (s.tru.scope = 0 ∨ s.tru.left ≠ 0 → t = s) ∧ keeps t))

/-- ADVANCE_SVN with v blows bits of the MIN_SVN field up to v; it is refused with HAZARD when v exceeds the running manifest's SVN, and never lowers the minimum, which is the number of blown bits of the 64 (R442). -/
def Obligations.AdvanceSvn : Prop :=
  ∀ (s : State) (v : BitVec 16), s.serves (aTru 0x11C) = true →
    let run := (s.fw.man.map (fun m => m.svn)).getD 0
    Completes (.advanceSvn v) s (fun t =>
      (run < v.toNat → t.reg (aTru 0x120) = 0x306 ∧ t.tru = s.tru)
      ∧ (v.toNat ≤ run → t.reg (aTru 0x120) = 6 ∧ t.tru = { s.tru with minSvn := max s.tru.minSvn (min v.toNat 64) })
      ∧ SameMemory s.toDev t.toDev ∧ SameCores s.toDev t.toDev)

/-! ## Reset and every step -/

/-- After power-on every register has its reset value but RST_CAUSE, which names the power-on, no shadow differs, nothing is in progress, no command waits, and the core clock may run (R12, R420). What memory then reads as is the model's choice (log entry 4). -/
def Obligations.ResetLeavesResetValues : Prop :=
  State.reset.pending = [] ∧ (∀ a, a ≠ aAon 0x108 → State.reset.reg a = resetVal a ∧ State.reset.shad a = resetVal a) ∧ State.reset.fld (aAon 0x108) 19 16 = 0
    ∧ (∀ c, State.reset.core c = {}) ∧ State.reset.stage = 0 ∧ State.reset.ready = false ∧ State.reset.clockOn = true ∧ State.reset.tick = 0
    ∧ (∀ a, State.reset.peek1 a = memDefault) ∧ State.reset.mem = [] ∧ State.reset.hostMem = []

/-- The machine after reset meets the invariant. -/
def Obligations.ResetMeetsTheInvariant : Prop := State.reset.Inv

/-- Every step keeps the invariant: both memories in canonical form, cached lines whole, the tables of cores and streams rising, the power state one of A0 to A4, no more than 64
MIN_SVN bits blown (R407, R442, R455). -/
def Obligations.StepKeepsInvariant : Prop :=
  ∀ (s t : State), s.Inv → step s = .next t → t.Inv
end

