-- ==== Sys2Proof/Laws/Table.lean ====
section
/-! SUPPORT. Laws of sparse tables, number sets and bit fields: what a read finds after a write, and that the
operations keep their canonical form. -/

namespace Sys2Proof.Machine

variable {α : Type}

@[simp] theorem Tbl.look_nil (x : Nat) : Tbl.look ([] : Tbl α) x = none := rfl

@[simp] theorem Tbl.getD_nil (x : Nat) (d : α) : Tbl.getD ([] : Tbl α) x d = d := rfl

theorem Tbl.look_put (t : Tbl α) (x y : Nat) (v : α) : Tbl.look (Tbl.put t x v) y = if y = x then some v else Tbl.look t y := by
  induction t with
  | nil => simp [Tbl.put, Tbl.look]
  | cons p t ih =>
    obtain ⟨k, w⟩ := p
    simp only [Tbl.put]
    split
    · simp [Tbl.look]
    · split
      · subst x; simp only [Tbl.look]; split <;> simp_all
      · simp only [Tbl.look, ih]; split <;> split <;> simp_all

theorem Tbl.look_filter (t : Tbl α) (f : Nat → Bool) (y : Nat) :
    Tbl.look (t.filter (fun p => f p.1)) y = if f y then Tbl.look t y else none := by
  induction t with
  | nil => simp
  | cons p t ih =>
    obtain ⟨k, w⟩ := p
    by_cases h : f k
    · simp only [List.filter_cons, h, if_true, Tbl.look, ih]; split <;> simp_all
    · by_cases hy : y = k
      · simp_all
      · simp_all [Tbl.look]

theorem Tbl.look_del (t : Tbl α) (x y : Nat) : Tbl.look (Tbl.del t x) y = if y = x then none else Tbl.look t y := by
  rw [Tbl.del, Tbl.look_filter t (fun k => k != x)]
  by_cases h : y = x <;> simp [h]

@[simp] theorem Tbl.getD_put_self (t : Tbl α) (x : Nat) (v d : α) : Tbl.getD (Tbl.put t x v) x d = v := by
  simp [Tbl.getD, Tbl.look_put]

theorem Tbl.getD_put_ne (t : Tbl α) {x y : Nat} (h : y ≠ x) (v d : α) : Tbl.getD (Tbl.put t x v) y d = Tbl.getD t y d := by
  simp [Tbl.getD, Tbl.look_put, h]

@[simp] theorem Tbl.getD_store_self [DecidableEq α] (t : Tbl α) (x : Nat) (v d : α) : Tbl.getD (Tbl.store d t x v) x d = v := by
  unfold Tbl.store
  split
  · simp [Tbl.getD, Tbl.look_del, *]
  · simp

theorem Tbl.getD_store_ne [DecidableEq α] (t : Tbl α) {x y : Nat} (h : y ≠ x) (v d e : α) :
    Tbl.getD (Tbl.store d t x v) y e = Tbl.getD t y e := by
  unfold Tbl.store
  split <;> simp [Tbl.getD, Tbl.look_del, Tbl.look_put, h]

theorem Tbl.getD_store [DecidableEq α] (t : Tbl α) (x y : Nat) (v d : α) :
    Tbl.getD (Tbl.store d t x v) y d = if y = x then v else Tbl.getD t y d := by
  split
  · subst y; simp
  · rw [Tbl.getD_store_ne t ‹_›]

/-! ## Canonical form -/

theorem Tbl.rises_mono : ∀ (t : Tbl α) {a b : Nat}, b ≤ a → Tbl.risesFrom a t = true → Tbl.risesFrom b t = true
  | [], _, _, _, _ => rfl
  | (k, v) :: t, a, b, h, hr => by
    simp only [Tbl.risesFrom, Bool.and_eq_true, decide_eq_true_eq] at hr ⊢
    exact ⟨by omega, hr.2⟩

theorem Tbl.rises_filter (f : Nat × α → Bool) : ∀ (t : Tbl α) {b : Nat}, Tbl.risesFrom b t = true → Tbl.risesFrom b (t.filter f) = true
  | [], _, _ => rfl
  | (k, v) :: t, b, h => by
    simp only [Tbl.risesFrom, Bool.and_eq_true, decide_eq_true_eq] at h
    have ih := Tbl.rises_filter f t h.2
    by_cases hf : f (k, v)
    · simp only [List.filter_cons, hf, if_true, Tbl.risesFrom, Bool.and_eq_true, decide_eq_true_eq]; exact ⟨h.1, ih⟩
    · simp only [List.filter_cons, hf]; exact Tbl.rises_mono _ (by omega) ih

theorem Tbl.rises_put : ∀ (t : Tbl α) {b x : Nat} (v : α), b ≤ x → Tbl.risesFrom b t = true → Tbl.risesFrom b (Tbl.put t x v) = true
  | [], b, x, v, hx, _ => by simp [Tbl.put, Tbl.risesFrom, hx]
  | (k, w) :: t, b, x, v, hx, h => by
    simp only [Tbl.risesFrom, Bool.and_eq_true, decide_eq_true_eq] at h
    simp only [Tbl.put]
    split
    · simp only [Tbl.risesFrom, Bool.and_eq_true, decide_eq_true_eq]; exact ⟨hx, by omega, h.2⟩
    · split
      · subst x; simp only [Tbl.risesFrom, Bool.and_eq_true, decide_eq_true_eq]; exact ⟨hx, h.2⟩
      · simp only [Tbl.risesFrom, Bool.and_eq_true, decide_eq_true_eq]
        exact ⟨h.1, Tbl.rises_put t v (by omega) h.2⟩

/-- Storing keeps the keys rising. -/
theorem Tbl.rises_store [DecidableEq α] (d : α) (t : Tbl α) (x : Nat) (v : α) (h : Tbl.risesFrom 0 t = true) :
    Tbl.risesFrom 0 (Tbl.store d t x v) = true := by
  unfold Tbl.store
  split
  · exact Tbl.rises_filter _ t h
  · exact Tbl.rises_put t v (by omega) h

theorem Tbl.all_put {t : Tbl α} {x : Nat} {v : α} {f : Nat × α → Bool} (hv : f (x, v) = true) (h : t.all f = true) : (Tbl.put t x v).all f = true := by
  induction t with
  | nil => simp [Tbl.put, hv]
  | cons p t ih =>
    obtain ⟨k, w⟩ := p
    simp only [List.all_cons, Bool.and_eq_true] at h
    simp only [Tbl.put]
    split
    · simp [hv, h.1, h.2]
    · split
      · simp [hv, h.2]
      · simp [h.1, ih h.2]

theorem Tbl.all_filter {t : Tbl α} {f g : Nat × α → Bool} (h : t.all f = true) : (t.filter g).all f = true := by
  simp only [List.all_eq_true] at h ⊢
  exact fun p hp => h p ((List.mem_filter.mp hp).1)

/-! ## Bit fields -/

theorem flag_putBit_self (w : Word) (n : Nat) (b : Bool) (h : n < 32) : flag (putBit w n b) n = b := by
  cases b <;> simp [flag, putBit, setBit, clrBit, BitVec.getLsbD_ofNat, Nat.testBit_shiftLeft, h]

end Sys2Proof.Machine
end

