-- ==== Sys2Proof/Laws/State.lean ====
section
/-! SUPPORT. What each update of the state leaves alone: one lemma per field per update, so that no proof unfolds a record
update; what a register, a core or a bit reads after it. -/

namespace Sys2Proof.Machine

/-! ## `Dev.setReg` -/

@[simp] theorem Dev.setReg_cycle (d : Dev) (a : Nat) (w : Word) : (d.setReg a w).cycle = d.cycle := rfl
@[simp] theorem Dev.setReg_free (d : Dev) (a : Nat) (w : Word) : (d.setReg a w).free = d.free := rfl
@[simp] theorem Dev.setReg_evBits (d : Dev) (a : Nat) (w : Word) : (d.setReg a w).evBits = d.evBits := rfl
@[simp] theorem Dev.setReg_evAt (d : Dev) (a : Nat) (w : Word) : (d.setReg a w).evAt = d.evAt := rfl
@[simp] theorem Dev.setReg_shadow (d : Dev) (a : Nat) (w : Word) : (d.setReg a w).shadow = d.shadow := rfl
@[simp] theorem Dev.setReg_mem (d : Dev) (a : Nat) (w : Word) : (d.setReg a w).mem = d.mem := rfl
@[simp] theorem Dev.setReg_poison (d : Dev) (a : Nat) (w : Word) : (d.setReg a w).poison = d.poison := rfl
@[simp] theorem Dev.setReg_errs (d : Dev) (a : Nat) (w : Word) : (d.setReg a w).errs = d.errs := rfl
@[simp] theorem Dev.setReg_hostMem (d : Dev) (a : Nat) (w : Word) : (d.setReg a w).hostMem = d.hostMem := rfl
@[simp] theorem Dev.setReg_hostPoison (d : Dev) (a : Nat) (w : Word) : (d.setReg a w).hostPoison = d.hostPoison := rfl
@[simp] theorem Dev.setReg_cache (d : Dev) (a : Nat) (w : Word) : (d.setReg a w).cache = d.cache := rfl
@[simp] theorem Dev.setReg_trx (d : Dev) (a : Nat) (w : Word) : (d.setReg a w).trx = d.trx := rfl
@[simp] theorem Dev.setReg_sccCnt (d : Dev) (a : Nat) (w : Word) : (d.setReg a w).sccCnt = d.sccCnt := rfl
@[simp] theorem Dev.setReg_lineCnt (d : Dev) (a : Nat) (w : Word) : (d.setReg a w).lineCnt = d.lineCnt := rfl
@[simp] theorem Dev.setReg_stackT (d : Dev) (a : Nat) (w : Word) : (d.setReg a w).stackT = d.stackT := rfl
@[simp] theorem Dev.setReg_cores (d : Dev) (a : Nat) (w : Word) : (d.setReg a w).cores = d.cores := rfl
@[simp] theorem Dev.setReg_redBuf (d : Dev) (a : Nat) (w : Word) : (d.setReg a w).redBuf = d.redBuf := rfl
@[simp] theorem Dev.setReg_redNo (d : Dev) (a : Nat) (w : Word) : (d.setReg a w).redNo = d.redNo := rfl
@[simp] theorem Dev.setReg_redFly (d : Dev) (a : Nat) (w : Word) : (d.setReg a w).redFly = d.redFly := rfl
@[simp] theorem Dev.setReg_redOut (d : Dev) (a : Nat) (w : Word) : (d.setReg a w).redOut = d.redOut := rfl
@[simp] theorem Dev.setReg_redLate (d : Dev) (a : Nat) (w : Word) : (d.setReg a w).redLate = d.redLate := rfl
@[simp] theorem Dev.setReg_chans (d : Dev) (a : Nat) (w : Word) : (d.setReg a w).chans = d.chans := rfl
@[simp] theorem Dev.setReg_images (d : Dev) (a : Nat) (w : Word) : (d.setReg a w).images = d.images := rfl
@[simp] theorem Dev.setReg_imageNo (d : Dev) (a : Nat) (w : Word) : (d.setReg a w).imageNo = d.imageNo := rfl
@[simp] theorem Dev.setReg_armT (d : Dev) (a : Nat) (w : Word) : (d.setReg a w).armT = d.armT := rfl
@[simp] theorem Dev.setReg_readyT (d : Dev) (a : Nat) (w : Word) : (d.setReg a w).readyT = d.readyT := rfl
@[simp] theorem Dev.setReg_armHwm (d : Dev) (a : Nat) (w : Word) : (d.setReg a w).armHwm = d.armHwm := rfl
@[simp] theorem Dev.setReg_gateSends (d : Dev) (a : Nat) (w : Word) : (d.setReg a w).gateSends = d.gateSends := rfl
@[simp] theorem Dev.setReg_owl (d : Dev) (a : Nat) (w : Word) : (d.setReg a w).owl = d.owl := rfl
@[simp] theorem Dev.setReg_sqrJobs (d : Dev) (a : Nat) (w : Word) : (d.setReg a w).sqrJobs = d.sqrJobs := rfl
@[simp] theorem Dev.setReg_sqrPages (d : Dev) (a : Nat) (w : Word) : (d.setReg a w).sqrPages = d.sqrPages := rfl
@[simp] theorem Dev.setReg_sqrCopy (d : Dev) (a : Nat) (w : Word) : (d.setReg a w).sqrCopy = d.sqrCopy := rfl
@[simp] theorem Dev.setReg_sqrHeld (d : Dev) (a : Nat) (w : Word) : (d.setReg a w).sqrHeld = d.sqrHeld := rfl
@[simp] theorem Dev.setReg_sqrStage (d : Dev) (a : Nat) (w : Word) : (d.setReg a w).sqrStage = d.sqrStage := rfl
@[simp] theorem Dev.setReg_sqrUsed (d : Dev) (a : Nat) (w : Word) : (d.setReg a w).sqrUsed = d.sqrUsed := rfl
@[simp] theorem Dev.setReg_sqrFt (d : Dev) (a : Nat) (w : Word) : (d.setReg a w).sqrFt = d.sqrFt := rfl
@[simp] theorem Dev.setReg_sqrQ (d : Dev) (a : Nat) (w : Word) : (d.setReg a w).sqrQ = d.sqrQ := rfl
@[simp] theorem Dev.setReg_sqrTouch (d : Dev) (a : Nat) (w : Word) : (d.setReg a w).sqrTouch = d.sqrTouch := rfl
@[simp] theorem Dev.setReg_sqrPrev (d : Dev) (a : Nat) (w : Word) : (d.setReg a w).sqrPrev = d.sqrPrev := rfl
@[simp] theorem Dev.setReg_sqrOld (d : Dev) (a : Nat) (w : Word) : (d.setReg a w).sqrOld = d.sqrOld := rfl
@[simp] theorem Dev.setReg_sqrCom (d : Dev) (a : Nat) (w : Word) : (d.setReg a w).sqrCom = d.sqrCom := rfl
@[simp] theorem Dev.setReg_hwSends (d : Dev) (a : Nat) (w : Word) : (d.setReg a w).hwSends = d.hwSends := rfl
@[simp] theorem Dev.setReg_fences (d : Dev) (a : Nat) (w : Word) : (d.setReg a w).fences = d.fences := rfl
@[simp] theorem Dev.setReg_epochJob (d : Dev) (a : Nat) (w : Word) : (d.setReg a w).epochJob = d.epochJob := rfl
@[simp] theorem Dev.setReg_fab (d : Dev) (a : Nat) (w : Word) : (d.setReg a w).fab = d.fab := rfl
@[simp] theorem Dev.setReg_cb (d : Dev) (a : Nat) (w : Word) : (d.setReg a w).cb = d.cb := rfl
@[simp] theorem Dev.setReg_tick (d : Dev) (a : Nat) (w : Word) : (d.setReg a w).tick = d.tick := rfl
@[simp] theorem Dev.setReg_budget (d : Dev) (a : Nat) (w : Word) : (d.setReg a w).budget = d.budget := rfl
@[simp] theorem Dev.setReg_leaveQ (d : Dev) (a : Nat) (w : Word) : (d.setReg a w).leaveQ = d.leaveQ := rfl
@[simp] theorem Dev.setReg_grants (d : Dev) (a : Nat) (w : Word) : (d.setReg a w).grants = d.grants := rfl
@[simp] theorem Dev.setReg_pw (d : Dev) (a : Nat) (w : Word) : (d.setReg a w).pw = d.pw := rfl
@[simp] theorem Dev.setReg_tru (d : Dev) (a : Nat) (w : Word) : (d.setReg a w).tru = d.tru := rfl
@[simp] theorem Dev.setReg_fw (d : Dev) (a : Nat) (w : Word) : (d.setReg a w).fw = d.fw := rfl
@[simp] theorem Dev.setReg_msix (d : Dev) (a : Nat) (w : Word) : (d.setReg a w).msix = d.msix := rfl
@[simp] theorem Dev.setReg_pba (d : Dev) (a : Nat) (w : Word) : (d.setReg a w).pba = d.pba := rfl
@[simp] theorem Dev.setReg_msixEn (d : Dev) (a : Nat) (w : Word) : (d.setReg a w).msixEn = d.msixEn := rfl
@[simp] theorem Dev.setReg_sent (d : Dev) (a : Nat) (w : Word) : (d.setReg a w).sent = d.sent := rfl
@[simp] theorem Dev.setReg_rdata (d : Dev) (a : Nat) (w : Word) : (d.setReg a w).rdata = d.rdata := rfl
@[simp] theorem Dev.setReg_rpoison (d : Dev) (a : Nat) (w : Word) : (d.setReg a w).rpoison = d.rpoison := rfl
@[simp] theorem Dev.setReg_rur (d : Dev) (a : Nat) (w : Word) : (d.setReg a w).rur = d.rur := rfl
@[simp] theorem Dev.setReg_rref (d : Dev) (a : Nat) (w : Word) : (d.setReg a w).rref = d.rref := rfl

/-! ## `Dev.putB` -/

@[simp] theorem Dev.putB_cycle (d : Dev) (a n : Nat) (b : Bool) : (d.putB a n b).cycle = d.cycle := rfl
@[simp] theorem Dev.putB_free (d : Dev) (a n : Nat) (b : Bool) : (d.putB a n b).free = d.free := rfl
@[simp] theorem Dev.putB_evBits (d : Dev) (a n : Nat) (b : Bool) : (d.putB a n b).evBits = d.evBits := rfl
@[simp] theorem Dev.putB_evAt (d : Dev) (a n : Nat) (b : Bool) : (d.putB a n b).evAt = d.evAt := rfl
@[simp] theorem Dev.putB_shadow (d : Dev) (a n : Nat) (b : Bool) : (d.putB a n b).shadow = d.shadow := rfl
@[simp] theorem Dev.putB_mem (d : Dev) (a n : Nat) (b : Bool) : (d.putB a n b).mem = d.mem := rfl
@[simp] theorem Dev.putB_poison (d : Dev) (a n : Nat) (b : Bool) : (d.putB a n b).poison = d.poison := rfl
@[simp] theorem Dev.putB_errs (d : Dev) (a n : Nat) (b : Bool) : (d.putB a n b).errs = d.errs := rfl
@[simp] theorem Dev.putB_hostMem (d : Dev) (a n : Nat) (b : Bool) : (d.putB a n b).hostMem = d.hostMem := rfl
@[simp] theorem Dev.putB_hostPoison (d : Dev) (a n : Nat) (b : Bool) : (d.putB a n b).hostPoison = d.hostPoison := rfl
@[simp] theorem Dev.putB_cache (d : Dev) (a n : Nat) (b : Bool) : (d.putB a n b).cache = d.cache := rfl
@[simp] theorem Dev.putB_trx (d : Dev) (a n : Nat) (b : Bool) : (d.putB a n b).trx = d.trx := rfl
@[simp] theorem Dev.putB_sccCnt (d : Dev) (a n : Nat) (b : Bool) : (d.putB a n b).sccCnt = d.sccCnt := rfl
@[simp] theorem Dev.putB_lineCnt (d : Dev) (a n : Nat) (b : Bool) : (d.putB a n b).lineCnt = d.lineCnt := rfl
@[simp] theorem Dev.putB_stackT (d : Dev) (a n : Nat) (b : Bool) : (d.putB a n b).stackT = d.stackT := rfl
@[simp] theorem Dev.putB_cores (d : Dev) (a n : Nat) (b : Bool) : (d.putB a n b).cores = d.cores := rfl
@[simp] theorem Dev.putB_redBuf (d : Dev) (a n : Nat) (b : Bool) : (d.putB a n b).redBuf = d.redBuf := rfl
@[simp] theorem Dev.putB_redNo (d : Dev) (a n : Nat) (b : Bool) : (d.putB a n b).redNo = d.redNo := rfl
@[simp] theorem Dev.putB_redFly (d : Dev) (a n : Nat) (b : Bool) : (d.putB a n b).redFly = d.redFly := rfl
@[simp] theorem Dev.putB_redOut (d : Dev) (a n : Nat) (b : Bool) : (d.putB a n b).redOut = d.redOut := rfl
@[simp] theorem Dev.putB_redLate (d : Dev) (a n : Nat) (b : Bool) : (d.putB a n b).redLate = d.redLate := rfl
@[simp] theorem Dev.putB_chans (d : Dev) (a n : Nat) (b : Bool) : (d.putB a n b).chans = d.chans := rfl
@[simp] theorem Dev.putB_images (d : Dev) (a n : Nat) (b : Bool) : (d.putB a n b).images = d.images := rfl
@[simp] theorem Dev.putB_imageNo (d : Dev) (a n : Nat) (b : Bool) : (d.putB a n b).imageNo = d.imageNo := rfl
@[simp] theorem Dev.putB_armT (d : Dev) (a n : Nat) (b : Bool) : (d.putB a n b).armT = d.armT := rfl
@[simp] theorem Dev.putB_readyT (d : Dev) (a n : Nat) (b : Bool) : (d.putB a n b).readyT = d.readyT := rfl
@[simp] theorem Dev.putB_armHwm (d : Dev) (a n : Nat) (b : Bool) : (d.putB a n b).armHwm = d.armHwm := rfl
@[simp] theorem Dev.putB_gateSends (d : Dev) (a n : Nat) (b : Bool) : (d.putB a n b).gateSends = d.gateSends := rfl
@[simp] theorem Dev.putB_owl (d : Dev) (a n : Nat) (b : Bool) : (d.putB a n b).owl = d.owl := rfl
@[simp] theorem Dev.putB_sqrJobs (d : Dev) (a n : Nat) (b : Bool) : (d.putB a n b).sqrJobs = d.sqrJobs := rfl
@[simp] theorem Dev.putB_sqrPages (d : Dev) (a n : Nat) (b : Bool) : (d.putB a n b).sqrPages = d.sqrPages := rfl
@[simp] theorem Dev.putB_sqrCopy (d : Dev) (a n : Nat) (b : Bool) : (d.putB a n b).sqrCopy = d.sqrCopy := rfl
@[simp] theorem Dev.putB_sqrHeld (d : Dev) (a n : Nat) (b : Bool) : (d.putB a n b).sqrHeld = d.sqrHeld := rfl
@[simp] theorem Dev.putB_sqrStage (d : Dev) (a n : Nat) (b : Bool) : (d.putB a n b).sqrStage = d.sqrStage := rfl
@[simp] theorem Dev.putB_sqrUsed (d : Dev) (a n : Nat) (b : Bool) : (d.putB a n b).sqrUsed = d.sqrUsed := rfl
@[simp] theorem Dev.putB_sqrFt (d : Dev) (a n : Nat) (b : Bool) : (d.putB a n b).sqrFt = d.sqrFt := rfl
@[simp] theorem Dev.putB_sqrQ (d : Dev) (a n : Nat) (b : Bool) : (d.putB a n b).sqrQ = d.sqrQ := rfl
@[simp] theorem Dev.putB_sqrTouch (d : Dev) (a n : Nat) (b : Bool) : (d.putB a n b).sqrTouch = d.sqrTouch := rfl
@[simp] theorem Dev.putB_sqrPrev (d : Dev) (a n : Nat) (b : Bool) : (d.putB a n b).sqrPrev = d.sqrPrev := rfl
@[simp] theorem Dev.putB_sqrOld (d : Dev) (a n : Nat) (b : Bool) : (d.putB a n b).sqrOld = d.sqrOld := rfl
@[simp] theorem Dev.putB_sqrCom (d : Dev) (a n : Nat) (b : Bool) : (d.putB a n b).sqrCom = d.sqrCom := rfl
@[simp] theorem Dev.putB_hwSends (d : Dev) (a n : Nat) (b : Bool) : (d.putB a n b).hwSends = d.hwSends := rfl
@[simp] theorem Dev.putB_fences (d : Dev) (a n : Nat) (b : Bool) : (d.putB a n b).fences = d.fences := rfl
@[simp] theorem Dev.putB_epochJob (d : Dev) (a n : Nat) (b : Bool) : (d.putB a n b).epochJob = d.epochJob := rfl
@[simp] theorem Dev.putB_fab (d : Dev) (a n : Nat) (b : Bool) : (d.putB a n b).fab = d.fab := rfl
@[simp] theorem Dev.putB_cb (d : Dev) (a n : Nat) (b : Bool) : (d.putB a n b).cb = d.cb := rfl
@[simp] theorem Dev.putB_tick (d : Dev) (a n : Nat) (b : Bool) : (d.putB a n b).tick = d.tick := rfl
@[simp] theorem Dev.putB_budget (d : Dev) (a n : Nat) (b : Bool) : (d.putB a n b).budget = d.budget := rfl
@[simp] theorem Dev.putB_leaveQ (d : Dev) (a n : Nat) (b : Bool) : (d.putB a n b).leaveQ = d.leaveQ := rfl
@[simp] theorem Dev.putB_grants (d : Dev) (a n : Nat) (b : Bool) : (d.putB a n b).grants = d.grants := rfl
@[simp] theorem Dev.putB_pw (d : Dev) (a n : Nat) (b : Bool) : (d.putB a n b).pw = d.pw := rfl
@[simp] theorem Dev.putB_tru (d : Dev) (a n : Nat) (b : Bool) : (d.putB a n b).tru = d.tru := rfl
@[simp] theorem Dev.putB_fw (d : Dev) (a n : Nat) (b : Bool) : (d.putB a n b).fw = d.fw := rfl
@[simp] theorem Dev.putB_msix (d : Dev) (a n : Nat) (b : Bool) : (d.putB a n b).msix = d.msix := rfl
@[simp] theorem Dev.putB_pba (d : Dev) (a n : Nat) (b : Bool) : (d.putB a n b).pba = d.pba := rfl
@[simp] theorem Dev.putB_msixEn (d : Dev) (a n : Nat) (b : Bool) : (d.putB a n b).msixEn = d.msixEn := rfl
@[simp] theorem Dev.putB_sent (d : Dev) (a n : Nat) (b : Bool) : (d.putB a n b).sent = d.sent := rfl
@[simp] theorem Dev.putB_rdata (d : Dev) (a n : Nat) (b : Bool) : (d.putB a n b).rdata = d.rdata := rfl
@[simp] theorem Dev.putB_rpoison (d : Dev) (a n : Nat) (b : Bool) : (d.putB a n b).rpoison = d.rpoison := rfl
@[simp] theorem Dev.putB_rur (d : Dev) (a n : Nat) (b : Bool) : (d.putB a n b).rur = d.rur := rfl
@[simp] theorem Dev.putB_rref (d : Dev) (a n : Nat) (b : Bool) : (d.putB a n b).rref = d.rref := rfl

/-! ## `Dev.setF` -/

@[simp] theorem Dev.setF_cycle (d : Dev) (a hi lo v : Nat) : (d.setF a hi lo v).cycle = d.cycle := rfl
@[simp] theorem Dev.setF_free (d : Dev) (a hi lo v : Nat) : (d.setF a hi lo v).free = d.free := rfl
@[simp] theorem Dev.setF_evBits (d : Dev) (a hi lo v : Nat) : (d.setF a hi lo v).evBits = d.evBits := rfl
@[simp] theorem Dev.setF_evAt (d : Dev) (a hi lo v : Nat) : (d.setF a hi lo v).evAt = d.evAt := rfl
@[simp] theorem Dev.setF_shadow (d : Dev) (a hi lo v : Nat) : (d.setF a hi lo v).shadow = d.shadow := rfl
@[simp] theorem Dev.setF_mem (d : Dev) (a hi lo v : Nat) : (d.setF a hi lo v).mem = d.mem := rfl
@[simp] theorem Dev.setF_poison (d : Dev) (a hi lo v : Nat) : (d.setF a hi lo v).poison = d.poison := rfl
@[simp] theorem Dev.setF_errs (d : Dev) (a hi lo v : Nat) : (d.setF a hi lo v).errs = d.errs := rfl
@[simp] theorem Dev.setF_hostMem (d : Dev) (a hi lo v : Nat) : (d.setF a hi lo v).hostMem = d.hostMem := rfl
@[simp] theorem Dev.setF_hostPoison (d : Dev) (a hi lo v : Nat) : (d.setF a hi lo v).hostPoison = d.hostPoison := rfl
@[simp] theorem Dev.setF_cache (d : Dev) (a hi lo v : Nat) : (d.setF a hi lo v).cache = d.cache := rfl
@[simp] theorem Dev.setF_trx (d : Dev) (a hi lo v : Nat) : (d.setF a hi lo v).trx = d.trx := rfl
@[simp] theorem Dev.setF_sccCnt (d : Dev) (a hi lo v : Nat) : (d.setF a hi lo v).sccCnt = d.sccCnt := rfl
@[simp] theorem Dev.setF_lineCnt (d : Dev) (a hi lo v : Nat) : (d.setF a hi lo v).lineCnt = d.lineCnt := rfl
@[simp] theorem Dev.setF_stackT (d : Dev) (a hi lo v : Nat) : (d.setF a hi lo v).stackT = d.stackT := rfl
@[simp] theorem Dev.setF_cores (d : Dev) (a hi lo v : Nat) : (d.setF a hi lo v).cores = d.cores := rfl
@[simp] theorem Dev.setF_redBuf (d : Dev) (a hi lo v : Nat) : (d.setF a hi lo v).redBuf = d.redBuf := rfl
@[simp] theorem Dev.setF_redNo (d : Dev) (a hi lo v : Nat) : (d.setF a hi lo v).redNo = d.redNo := rfl
@[simp] theorem Dev.setF_redFly (d : Dev) (a hi lo v : Nat) : (d.setF a hi lo v).redFly = d.redFly := rfl
@[simp] theorem Dev.setF_redOut (d : Dev) (a hi lo v : Nat) : (d.setF a hi lo v).redOut = d.redOut := rfl
@[simp] theorem Dev.setF_redLate (d : Dev) (a hi lo v : Nat) : (d.setF a hi lo v).redLate = d.redLate := rfl
@[simp] theorem Dev.setF_chans (d : Dev) (a hi lo v : Nat) : (d.setF a hi lo v).chans = d.chans := rfl
@[simp] theorem Dev.setF_images (d : Dev) (a hi lo v : Nat) : (d.setF a hi lo v).images = d.images := rfl
@[simp] theorem Dev.setF_imageNo (d : Dev) (a hi lo v : Nat) : (d.setF a hi lo v).imageNo = d.imageNo := rfl
@[simp] theorem Dev.setF_armT (d : Dev) (a hi lo v : Nat) : (d.setF a hi lo v).armT = d.armT := rfl
@[simp] theorem Dev.setF_readyT (d : Dev) (a hi lo v : Nat) : (d.setF a hi lo v).readyT = d.readyT := rfl
@[simp] theorem Dev.setF_armHwm (d : Dev) (a hi lo v : Nat) : (d.setF a hi lo v).armHwm = d.armHwm := rfl
@[simp] theorem Dev.setF_gateSends (d : Dev) (a hi lo v : Nat) : (d.setF a hi lo v).gateSends = d.gateSends := rfl
@[simp] theorem Dev.setF_owl (d : Dev) (a hi lo v : Nat) : (d.setF a hi lo v).owl = d.owl := rfl
@[simp] theorem Dev.setF_sqrJobs (d : Dev) (a hi lo v : Nat) : (d.setF a hi lo v).sqrJobs = d.sqrJobs := rfl
@[simp] theorem Dev.setF_sqrPages (d : Dev) (a hi lo v : Nat) : (d.setF a hi lo v).sqrPages = d.sqrPages := rfl
@[simp] theorem Dev.setF_sqrCopy (d : Dev) (a hi lo v : Nat) : (d.setF a hi lo v).sqrCopy = d.sqrCopy := rfl
@[simp] theorem Dev.setF_sqrHeld (d : Dev) (a hi lo v : Nat) : (d.setF a hi lo v).sqrHeld = d.sqrHeld := rfl
@[simp] theorem Dev.setF_sqrStage (d : Dev) (a hi lo v : Nat) : (d.setF a hi lo v).sqrStage = d.sqrStage := rfl
@[simp] theorem Dev.setF_sqrUsed (d : Dev) (a hi lo v : Nat) : (d.setF a hi lo v).sqrUsed = d.sqrUsed := rfl
@[simp] theorem Dev.setF_sqrFt (d : Dev) (a hi lo v : Nat) : (d.setF a hi lo v).sqrFt = d.sqrFt := rfl
@[simp] theorem Dev.setF_sqrQ (d : Dev) (a hi lo v : Nat) : (d.setF a hi lo v).sqrQ = d.sqrQ := rfl
@[simp] theorem Dev.setF_sqrTouch (d : Dev) (a hi lo v : Nat) : (d.setF a hi lo v).sqrTouch = d.sqrTouch := rfl
@[simp] theorem Dev.setF_sqrPrev (d : Dev) (a hi lo v : Nat) : (d.setF a hi lo v).sqrPrev = d.sqrPrev := rfl
@[simp] theorem Dev.setF_sqrOld (d : Dev) (a hi lo v : Nat) : (d.setF a hi lo v).sqrOld = d.sqrOld := rfl
@[simp] theorem Dev.setF_sqrCom (d : Dev) (a hi lo v : Nat) : (d.setF a hi lo v).sqrCom = d.sqrCom := rfl
@[simp] theorem Dev.setF_hwSends (d : Dev) (a hi lo v : Nat) : (d.setF a hi lo v).hwSends = d.hwSends := rfl
@[simp] theorem Dev.setF_fences (d : Dev) (a hi lo v : Nat) : (d.setF a hi lo v).fences = d.fences := rfl
@[simp] theorem Dev.setF_epochJob (d : Dev) (a hi lo v : Nat) : (d.setF a hi lo v).epochJob = d.epochJob := rfl
@[simp] theorem Dev.setF_fab (d : Dev) (a hi lo v : Nat) : (d.setF a hi lo v).fab = d.fab := rfl
@[simp] theorem Dev.setF_cb (d : Dev) (a hi lo v : Nat) : (d.setF a hi lo v).cb = d.cb := rfl
@[simp] theorem Dev.setF_tick (d : Dev) (a hi lo v : Nat) : (d.setF a hi lo v).tick = d.tick := rfl
@[simp] theorem Dev.setF_budget (d : Dev) (a hi lo v : Nat) : (d.setF a hi lo v).budget = d.budget := rfl
@[simp] theorem Dev.setF_leaveQ (d : Dev) (a hi lo v : Nat) : (d.setF a hi lo v).leaveQ = d.leaveQ := rfl
@[simp] theorem Dev.setF_grants (d : Dev) (a hi lo v : Nat) : (d.setF a hi lo v).grants = d.grants := rfl
@[simp] theorem Dev.setF_pw (d : Dev) (a hi lo v : Nat) : (d.setF a hi lo v).pw = d.pw := rfl
@[simp] theorem Dev.setF_tru (d : Dev) (a hi lo v : Nat) : (d.setF a hi lo v).tru = d.tru := rfl
@[simp] theorem Dev.setF_fw (d : Dev) (a hi lo v : Nat) : (d.setF a hi lo v).fw = d.fw := rfl
@[simp] theorem Dev.setF_msix (d : Dev) (a hi lo v : Nat) : (d.setF a hi lo v).msix = d.msix := rfl
@[simp] theorem Dev.setF_pba (d : Dev) (a hi lo v : Nat) : (d.setF a hi lo v).pba = d.pba := rfl
@[simp] theorem Dev.setF_msixEn (d : Dev) (a hi lo v : Nat) : (d.setF a hi lo v).msixEn = d.msixEn := rfl
@[simp] theorem Dev.setF_sent (d : Dev) (a hi lo v : Nat) : (d.setF a hi lo v).sent = d.sent := rfl
@[simp] theorem Dev.setF_rdata (d : Dev) (a hi lo v : Nat) : (d.setF a hi lo v).rdata = d.rdata := rfl
@[simp] theorem Dev.setF_rpoison (d : Dev) (a hi lo v : Nat) : (d.setF a hi lo v).rpoison = d.rpoison := rfl
@[simp] theorem Dev.setF_rur (d : Dev) (a hi lo v : Nat) : (d.setF a hi lo v).rur = d.rur := rfl
@[simp] theorem Dev.setF_rref (d : Dev) (a hi lo v : Nat) : (d.setF a hi lo v).rref = d.rref := rfl

/-! ## `Dev.inc` -/

@[simp] theorem Dev.inc_cycle (d : Dev) (a n : Nat) : (d.inc a n).cycle = d.cycle := rfl
@[simp] theorem Dev.inc_free (d : Dev) (a n : Nat) : (d.inc a n).free = d.free := rfl
@[simp] theorem Dev.inc_evBits (d : Dev) (a n : Nat) : (d.inc a n).evBits = d.evBits := rfl
@[simp] theorem Dev.inc_evAt (d : Dev) (a n : Nat) : (d.inc a n).evAt = d.evAt := rfl
@[simp] theorem Dev.inc_shadow (d : Dev) (a n : Nat) : (d.inc a n).shadow = d.shadow := rfl
@[simp] theorem Dev.inc_mem (d : Dev) (a n : Nat) : (d.inc a n).mem = d.mem := rfl
@[simp] theorem Dev.inc_poison (d : Dev) (a n : Nat) : (d.inc a n).poison = d.poison := rfl
@[simp] theorem Dev.inc_errs (d : Dev) (a n : Nat) : (d.inc a n).errs = d.errs := rfl
@[simp] theorem Dev.inc_hostMem (d : Dev) (a n : Nat) : (d.inc a n).hostMem = d.hostMem := rfl
@[simp] theorem Dev.inc_hostPoison (d : Dev) (a n : Nat) : (d.inc a n).hostPoison = d.hostPoison := rfl
@[simp] theorem Dev.inc_cache (d : Dev) (a n : Nat) : (d.inc a n).cache = d.cache := rfl
@[simp] theorem Dev.inc_trx (d : Dev) (a n : Nat) : (d.inc a n).trx = d.trx := rfl
@[simp] theorem Dev.inc_sccCnt (d : Dev) (a n : Nat) : (d.inc a n).sccCnt = d.sccCnt := rfl
@[simp] theorem Dev.inc_lineCnt (d : Dev) (a n : Nat) : (d.inc a n).lineCnt = d.lineCnt := rfl
@[simp] theorem Dev.inc_stackT (d : Dev) (a n : Nat) : (d.inc a n).stackT = d.stackT := rfl
@[simp] theorem Dev.inc_cores (d : Dev) (a n : Nat) : (d.inc a n).cores = d.cores := rfl
@[simp] theorem Dev.inc_redBuf (d : Dev) (a n : Nat) : (d.inc a n).redBuf = d.redBuf := rfl
@[simp] theorem Dev.inc_redNo (d : Dev) (a n : Nat) : (d.inc a n).redNo = d.redNo := rfl
@[simp] theorem Dev.inc_redFly (d : Dev) (a n : Nat) : (d.inc a n).redFly = d.redFly := rfl
@[simp] theorem Dev.inc_redOut (d : Dev) (a n : Nat) : (d.inc a n).redOut = d.redOut := rfl
@[simp] theorem Dev.inc_redLate (d : Dev) (a n : Nat) : (d.inc a n).redLate = d.redLate := rfl
@[simp] theorem Dev.inc_chans (d : Dev) (a n : Nat) : (d.inc a n).chans = d.chans := rfl
@[simp] theorem Dev.inc_images (d : Dev) (a n : Nat) : (d.inc a n).images = d.images := rfl
@[simp] theorem Dev.inc_imageNo (d : Dev) (a n : Nat) : (d.inc a n).imageNo = d.imageNo := rfl
@[simp] theorem Dev.inc_armT (d : Dev) (a n : Nat) : (d.inc a n).armT = d.armT := rfl
@[simp] theorem Dev.inc_readyT (d : Dev) (a n : Nat) : (d.inc a n).readyT = d.readyT := rfl
@[simp] theorem Dev.inc_armHwm (d : Dev) (a n : Nat) : (d.inc a n).armHwm = d.armHwm := rfl
@[simp] theorem Dev.inc_gateSends (d : Dev) (a n : Nat) : (d.inc a n).gateSends = d.gateSends := rfl
@[simp] theorem Dev.inc_owl (d : Dev) (a n : Nat) : (d.inc a n).owl = d.owl := rfl
@[simp] theorem Dev.inc_sqrJobs (d : Dev) (a n : Nat) : (d.inc a n).sqrJobs = d.sqrJobs := rfl
@[simp] theorem Dev.inc_sqrPages (d : Dev) (a n : Nat) : (d.inc a n).sqrPages = d.sqrPages := rfl
@[simp] theorem Dev.inc_sqrCopy (d : Dev) (a n : Nat) : (d.inc a n).sqrCopy = d.sqrCopy := rfl
@[simp] theorem Dev.inc_sqrHeld (d : Dev) (a n : Nat) : (d.inc a n).sqrHeld = d.sqrHeld := rfl
@[simp] theorem Dev.inc_sqrStage (d : Dev) (a n : Nat) : (d.inc a n).sqrStage = d.sqrStage := rfl
@[simp] theorem Dev.inc_sqrUsed (d : Dev) (a n : Nat) : (d.inc a n).sqrUsed = d.sqrUsed := rfl
@[simp] theorem Dev.inc_sqrFt (d : Dev) (a n : Nat) : (d.inc a n).sqrFt = d.sqrFt := rfl
@[simp] theorem Dev.inc_sqrQ (d : Dev) (a n : Nat) : (d.inc a n).sqrQ = d.sqrQ := rfl
@[simp] theorem Dev.inc_sqrTouch (d : Dev) (a n : Nat) : (d.inc a n).sqrTouch = d.sqrTouch := rfl
@[simp] theorem Dev.inc_sqrPrev (d : Dev) (a n : Nat) : (d.inc a n).sqrPrev = d.sqrPrev := rfl
@[simp] theorem Dev.inc_sqrOld (d : Dev) (a n : Nat) : (d.inc a n).sqrOld = d.sqrOld := rfl
@[simp] theorem Dev.inc_sqrCom (d : Dev) (a n : Nat) : (d.inc a n).sqrCom = d.sqrCom := rfl
@[simp] theorem Dev.inc_hwSends (d : Dev) (a n : Nat) : (d.inc a n).hwSends = d.hwSends := rfl
@[simp] theorem Dev.inc_fences (d : Dev) (a n : Nat) : (d.inc a n).fences = d.fences := rfl
@[simp] theorem Dev.inc_epochJob (d : Dev) (a n : Nat) : (d.inc a n).epochJob = d.epochJob := rfl
@[simp] theorem Dev.inc_fab (d : Dev) (a n : Nat) : (d.inc a n).fab = d.fab := rfl
@[simp] theorem Dev.inc_cb (d : Dev) (a n : Nat) : (d.inc a n).cb = d.cb := rfl
@[simp] theorem Dev.inc_tick (d : Dev) (a n : Nat) : (d.inc a n).tick = d.tick := rfl
@[simp] theorem Dev.inc_budget (d : Dev) (a n : Nat) : (d.inc a n).budget = d.budget := rfl
@[simp] theorem Dev.inc_leaveQ (d : Dev) (a n : Nat) : (d.inc a n).leaveQ = d.leaveQ := rfl
@[simp] theorem Dev.inc_grants (d : Dev) (a n : Nat) : (d.inc a n).grants = d.grants := rfl
@[simp] theorem Dev.inc_pw (d : Dev) (a n : Nat) : (d.inc a n).pw = d.pw := rfl
@[simp] theorem Dev.inc_tru (d : Dev) (a n : Nat) : (d.inc a n).tru = d.tru := rfl
@[simp] theorem Dev.inc_fw (d : Dev) (a n : Nat) : (d.inc a n).fw = d.fw := rfl
@[simp] theorem Dev.inc_msix (d : Dev) (a n : Nat) : (d.inc a n).msix = d.msix := rfl
@[simp] theorem Dev.inc_pba (d : Dev) (a n : Nat) : (d.inc a n).pba = d.pba := rfl
@[simp] theorem Dev.inc_msixEn (d : Dev) (a n : Nat) : (d.inc a n).msixEn = d.msixEn := rfl
@[simp] theorem Dev.inc_sent (d : Dev) (a n : Nat) : (d.inc a n).sent = d.sent := rfl
@[simp] theorem Dev.inc_rdata (d : Dev) (a n : Nat) : (d.inc a n).rdata = d.rdata := rfl
@[simp] theorem Dev.inc_rpoison (d : Dev) (a n : Nat) : (d.inc a n).rpoison = d.rpoison := rfl
@[simp] theorem Dev.inc_rur (d : Dev) (a n : Nat) : (d.inc a n).rur = d.rur := rfl
@[simp] theorem Dev.inc_rref (d : Dev) (a n : Nat) : (d.inc a n).rref = d.rref := rfl

/-! ## `Dev.incWrap` -/

@[simp] theorem Dev.incWrap_cycle (d : Dev) (a n : Nat) : (d.incWrap a n).cycle = d.cycle := rfl
@[simp] theorem Dev.incWrap_free (d : Dev) (a n : Nat) : (d.incWrap a n).free = d.free := rfl
@[simp] theorem Dev.incWrap_evBits (d : Dev) (a n : Nat) : (d.incWrap a n).evBits = d.evBits := rfl
@[simp] theorem Dev.incWrap_evAt (d : Dev) (a n : Nat) : (d.incWrap a n).evAt = d.evAt := rfl
@[simp] theorem Dev.incWrap_shadow (d : Dev) (a n : Nat) : (d.incWrap a n).shadow = d.shadow := rfl
@[simp] theorem Dev.incWrap_mem (d : Dev) (a n : Nat) : (d.incWrap a n).mem = d.mem := rfl
@[simp] theorem Dev.incWrap_poison (d : Dev) (a n : Nat) : (d.incWrap a n).poison = d.poison := rfl
@[simp] theorem Dev.incWrap_errs (d : Dev) (a n : Nat) : (d.incWrap a n).errs = d.errs := rfl
@[simp] theorem Dev.incWrap_hostMem (d : Dev) (a n : Nat) : (d.incWrap a n).hostMem = d.hostMem := rfl
@[simp] theorem Dev.incWrap_hostPoison (d : Dev) (a n : Nat) : (d.incWrap a n).hostPoison = d.hostPoison := rfl
@[simp] theorem Dev.incWrap_cache (d : Dev) (a n : Nat) : (d.incWrap a n).cache = d.cache := rfl
@[simp] theorem Dev.incWrap_trx (d : Dev) (a n : Nat) : (d.incWrap a n).trx = d.trx := rfl
@[simp] theorem Dev.incWrap_sccCnt (d : Dev) (a n : Nat) : (d.incWrap a n).sccCnt = d.sccCnt := rfl
@[simp] theorem Dev.incWrap_lineCnt (d : Dev) (a n : Nat) : (d.incWrap a n).lineCnt = d.lineCnt := rfl
@[simp] theorem Dev.incWrap_stackT (d : Dev) (a n : Nat) : (d.incWrap a n).stackT = d.stackT := rfl
@[simp] theorem Dev.incWrap_cores (d : Dev) (a n : Nat) : (d.incWrap a n).cores = d.cores := rfl
@[simp] theorem Dev.incWrap_redBuf (d : Dev) (a n : Nat) : (d.incWrap a n).redBuf = d.redBuf := rfl
@[simp] theorem Dev.incWrap_redNo (d : Dev) (a n : Nat) : (d.incWrap a n).redNo = d.redNo := rfl
@[simp] theorem Dev.incWrap_redFly (d : Dev) (a n : Nat) : (d.incWrap a n).redFly = d.redFly := rfl
@[simp] theorem Dev.incWrap_redOut (d : Dev) (a n : Nat) : (d.incWrap a n).redOut = d.redOut := rfl
@[simp] theorem Dev.incWrap_redLate (d : Dev) (a n : Nat) : (d.incWrap a n).redLate = d.redLate := rfl
@[simp] theorem Dev.incWrap_chans (d : Dev) (a n : Nat) : (d.incWrap a n).chans = d.chans := rfl
@[simp] theorem Dev.incWrap_images (d : Dev) (a n : Nat) : (d.incWrap a n).images = d.images := rfl
@[simp] theorem Dev.incWrap_imageNo (d : Dev) (a n : Nat) : (d.incWrap a n).imageNo = d.imageNo := rfl
@[simp] theorem Dev.incWrap_armT (d : Dev) (a n : Nat) : (d.incWrap a n).armT = d.armT := rfl
@[simp] theorem Dev.incWrap_readyT (d : Dev) (a n : Nat) : (d.incWrap a n).readyT = d.readyT := rfl
@[simp] theorem Dev.incWrap_armHwm (d : Dev) (a n : Nat) : (d.incWrap a n).armHwm = d.armHwm := rfl
@[simp] theorem Dev.incWrap_gateSends (d : Dev) (a n : Nat) : (d.incWrap a n).gateSends = d.gateSends := rfl
@[simp] theorem Dev.incWrap_owl (d : Dev) (a n : Nat) : (d.incWrap a n).owl = d.owl := rfl
@[simp] theorem Dev.incWrap_sqrJobs (d : Dev) (a n : Nat) : (d.incWrap a n).sqrJobs = d.sqrJobs := rfl
@[simp] theorem Dev.incWrap_sqrPages (d : Dev) (a n : Nat) : (d.incWrap a n).sqrPages = d.sqrPages := rfl
@[simp] theorem Dev.incWrap_sqrCopy (d : Dev) (a n : Nat) : (d.incWrap a n).sqrCopy = d.sqrCopy := rfl
@[simp] theorem Dev.incWrap_sqrHeld (d : Dev) (a n : Nat) : (d.incWrap a n).sqrHeld = d.sqrHeld := rfl
@[simp] theorem Dev.incWrap_sqrStage (d : Dev) (a n : Nat) : (d.incWrap a n).sqrStage = d.sqrStage := rfl
@[simp] theorem Dev.incWrap_sqrUsed (d : Dev) (a n : Nat) : (d.incWrap a n).sqrUsed = d.sqrUsed := rfl
@[simp] theorem Dev.incWrap_sqrFt (d : Dev) (a n : Nat) : (d.incWrap a n).sqrFt = d.sqrFt := rfl
@[simp] theorem Dev.incWrap_sqrQ (d : Dev) (a n : Nat) : (d.incWrap a n).sqrQ = d.sqrQ := rfl
@[simp] theorem Dev.incWrap_sqrTouch (d : Dev) (a n : Nat) : (d.incWrap a n).sqrTouch = d.sqrTouch := rfl
@[simp] theorem Dev.incWrap_sqrPrev (d : Dev) (a n : Nat) : (d.incWrap a n).sqrPrev = d.sqrPrev := rfl
@[simp] theorem Dev.incWrap_sqrOld (d : Dev) (a n : Nat) : (d.incWrap a n).sqrOld = d.sqrOld := rfl
@[simp] theorem Dev.incWrap_sqrCom (d : Dev) (a n : Nat) : (d.incWrap a n).sqrCom = d.sqrCom := rfl
@[simp] theorem Dev.incWrap_hwSends (d : Dev) (a n : Nat) : (d.incWrap a n).hwSends = d.hwSends := rfl
@[simp] theorem Dev.incWrap_fences (d : Dev) (a n : Nat) : (d.incWrap a n).fences = d.fences := rfl
@[simp] theorem Dev.incWrap_epochJob (d : Dev) (a n : Nat) : (d.incWrap a n).epochJob = d.epochJob := rfl
@[simp] theorem Dev.incWrap_fab (d : Dev) (a n : Nat) : (d.incWrap a n).fab = d.fab := rfl
@[simp] theorem Dev.incWrap_cb (d : Dev) (a n : Nat) : (d.incWrap a n).cb = d.cb := rfl
@[simp] theorem Dev.incWrap_tick (d : Dev) (a n : Nat) : (d.incWrap a n).tick = d.tick := rfl
@[simp] theorem Dev.incWrap_budget (d : Dev) (a n : Nat) : (d.incWrap a n).budget = d.budget := rfl
@[simp] theorem Dev.incWrap_leaveQ (d : Dev) (a n : Nat) : (d.incWrap a n).leaveQ = d.leaveQ := rfl
@[simp] theorem Dev.incWrap_grants (d : Dev) (a n : Nat) : (d.incWrap a n).grants = d.grants := rfl
@[simp] theorem Dev.incWrap_pw (d : Dev) (a n : Nat) : (d.incWrap a n).pw = d.pw := rfl
@[simp] theorem Dev.incWrap_tru (d : Dev) (a n : Nat) : (d.incWrap a n).tru = d.tru := rfl
@[simp] theorem Dev.incWrap_fw (d : Dev) (a n : Nat) : (d.incWrap a n).fw = d.fw := rfl
@[simp] theorem Dev.incWrap_msix (d : Dev) (a n : Nat) : (d.incWrap a n).msix = d.msix := rfl
@[simp] theorem Dev.incWrap_pba (d : Dev) (a n : Nat) : (d.incWrap a n).pba = d.pba := rfl
@[simp] theorem Dev.incWrap_msixEn (d : Dev) (a n : Nat) : (d.incWrap a n).msixEn = d.msixEn := rfl
@[simp] theorem Dev.incWrap_sent (d : Dev) (a n : Nat) : (d.incWrap a n).sent = d.sent := rfl
@[simp] theorem Dev.incWrap_rdata (d : Dev) (a n : Nat) : (d.incWrap a n).rdata = d.rdata := rfl
@[simp] theorem Dev.incWrap_rpoison (d : Dev) (a n : Nat) : (d.incWrap a n).rpoison = d.rpoison := rfl
@[simp] theorem Dev.incWrap_rur (d : Dev) (a n : Nat) : (d.incWrap a n).rur = d.rur := rfl
@[simp] theorem Dev.incWrap_rref (d : Dev) (a n : Nat) : (d.incWrap a n).rref = d.rref := rfl

/-! ## `Dev.setCore` -/

@[simp] theorem Dev.setCore_cycle (d : Dev) (c : Nat) (k : Core) : (d.setCore c k).cycle = d.cycle := rfl
@[simp] theorem Dev.setCore_free (d : Dev) (c : Nat) (k : Core) : (d.setCore c k).free = d.free := rfl
@[simp] theorem Dev.setCore_regs (d : Dev) (c : Nat) (k : Core) : (d.setCore c k).regs = d.regs := rfl
@[simp] theorem Dev.setCore_evBits (d : Dev) (c : Nat) (k : Core) : (d.setCore c k).evBits = d.evBits := rfl
@[simp] theorem Dev.setCore_evAt (d : Dev) (c : Nat) (k : Core) : (d.setCore c k).evAt = d.evAt := rfl
@[simp] theorem Dev.setCore_shadow (d : Dev) (c : Nat) (k : Core) : (d.setCore c k).shadow = d.shadow := rfl
@[simp] theorem Dev.setCore_mem (d : Dev) (c : Nat) (k : Core) : (d.setCore c k).mem = d.mem := rfl
@[simp] theorem Dev.setCore_poison (d : Dev) (c : Nat) (k : Core) : (d.setCore c k).poison = d.poison := rfl
@[simp] theorem Dev.setCore_errs (d : Dev) (c : Nat) (k : Core) : (d.setCore c k).errs = d.errs := rfl
@[simp] theorem Dev.setCore_hostMem (d : Dev) (c : Nat) (k : Core) : (d.setCore c k).hostMem = d.hostMem := rfl
@[simp] theorem Dev.setCore_hostPoison (d : Dev) (c : Nat) (k : Core) : (d.setCore c k).hostPoison = d.hostPoison := rfl
@[simp] theorem Dev.setCore_cache (d : Dev) (c : Nat) (k : Core) : (d.setCore c k).cache = d.cache := rfl
@[simp] theorem Dev.setCore_trx (d : Dev) (c : Nat) (k : Core) : (d.setCore c k).trx = d.trx := rfl
@[simp] theorem Dev.setCore_sccCnt (d : Dev) (c : Nat) (k : Core) : (d.setCore c k).sccCnt = d.sccCnt := rfl
@[simp] theorem Dev.setCore_lineCnt (d : Dev) (c : Nat) (k : Core) : (d.setCore c k).lineCnt = d.lineCnt := rfl
@[simp] theorem Dev.setCore_stackT (d : Dev) (c : Nat) (k : Core) : (d.setCore c k).stackT = d.stackT := rfl
@[simp] theorem Dev.setCore_redBuf (d : Dev) (c : Nat) (k : Core) : (d.setCore c k).redBuf = d.redBuf := rfl
@[simp] theorem Dev.setCore_redNo (d : Dev) (c : Nat) (k : Core) : (d.setCore c k).redNo = d.redNo := rfl
@[simp] theorem Dev.setCore_redFly (d : Dev) (c : Nat) (k : Core) : (d.setCore c k).redFly = d.redFly := rfl
@[simp] theorem Dev.setCore_redOut (d : Dev) (c : Nat) (k : Core) : (d.setCore c k).redOut = d.redOut := rfl
@[simp] theorem Dev.setCore_redLate (d : Dev) (c : Nat) (k : Core) : (d.setCore c k).redLate = d.redLate := rfl
@[simp] theorem Dev.setCore_chans (d : Dev) (c : Nat) (k : Core) : (d.setCore c k).chans = d.chans := rfl
@[simp] theorem Dev.setCore_images (d : Dev) (c : Nat) (k : Core) : (d.setCore c k).images = d.images := rfl
@[simp] theorem Dev.setCore_imageNo (d : Dev) (c : Nat) (k : Core) : (d.setCore c k).imageNo = d.imageNo := rfl
@[simp] theorem Dev.setCore_armT (d : Dev) (c : Nat) (k : Core) : (d.setCore c k).armT = d.armT := rfl
@[simp] theorem Dev.setCore_readyT (d : Dev) (c : Nat) (k : Core) : (d.setCore c k).readyT = d.readyT := rfl
@[simp] theorem Dev.setCore_armHwm (d : Dev) (c : Nat) (k : Core) : (d.setCore c k).armHwm = d.armHwm := rfl
@[simp] theorem Dev.setCore_gateSends (d : Dev) (c : Nat) (k : Core) : (d.setCore c k).gateSends = d.gateSends := rfl
@[simp] theorem Dev.setCore_owl (d : Dev) (c : Nat) (k : Core) : (d.setCore c k).owl = d.owl := rfl
@[simp] theorem Dev.setCore_sqrJobs (d : Dev) (c : Nat) (k : Core) : (d.setCore c k).sqrJobs = d.sqrJobs := rfl
@[simp] theorem Dev.setCore_sqrPages (d : Dev) (c : Nat) (k : Core) : (d.setCore c k).sqrPages = d.sqrPages := rfl
@[simp] theorem Dev.setCore_sqrCopy (d : Dev) (c : Nat) (k : Core) : (d.setCore c k).sqrCopy = d.sqrCopy := rfl
@[simp] theorem Dev.setCore_sqrHeld (d : Dev) (c : Nat) (k : Core) : (d.setCore c k).sqrHeld = d.sqrHeld := rfl
@[simp] theorem Dev.setCore_sqrStage (d : Dev) (c : Nat) (k : Core) : (d.setCore c k).sqrStage = d.sqrStage := rfl
@[simp] theorem Dev.setCore_sqrUsed (d : Dev) (c : Nat) (k : Core) : (d.setCore c k).sqrUsed = d.sqrUsed := rfl
@[simp] theorem Dev.setCore_sqrFt (d : Dev) (c : Nat) (k : Core) : (d.setCore c k).sqrFt = d.sqrFt := rfl
@[simp] theorem Dev.setCore_sqrQ (d : Dev) (c : Nat) (k : Core) : (d.setCore c k).sqrQ = d.sqrQ := rfl
@[simp] theorem Dev.setCore_sqrTouch (d : Dev) (c : Nat) (k : Core) : (d.setCore c k).sqrTouch = d.sqrTouch := rfl
@[simp] theorem Dev.setCore_sqrPrev (d : Dev) (c : Nat) (k : Core) : (d.setCore c k).sqrPrev = d.sqrPrev := rfl
@[simp] theorem Dev.setCore_sqrOld (d : Dev) (c : Nat) (k : Core) : (d.setCore c k).sqrOld = d.sqrOld := rfl
@[simp] theorem Dev.setCore_sqrCom (d : Dev) (c : Nat) (k : Core) : (d.setCore c k).sqrCom = d.sqrCom := rfl
@[simp] theorem Dev.setCore_hwSends (d : Dev) (c : Nat) (k : Core) : (d.setCore c k).hwSends = d.hwSends := rfl
@[simp] theorem Dev.setCore_fences (d : Dev) (c : Nat) (k : Core) : (d.setCore c k).fences = d.fences := rfl
@[simp] theorem Dev.setCore_epochJob (d : Dev) (c : Nat) (k : Core) : (d.setCore c k).epochJob = d.epochJob := rfl
@[simp] theorem Dev.setCore_fab (d : Dev) (c : Nat) (k : Core) : (d.setCore c k).fab = d.fab := rfl
@[simp] theorem Dev.setCore_cb (d : Dev) (c : Nat) (k : Core) : (d.setCore c k).cb = d.cb := rfl
@[simp] theorem Dev.setCore_tick (d : Dev) (c : Nat) (k : Core) : (d.setCore c k).tick = d.tick := rfl
@[simp] theorem Dev.setCore_budget (d : Dev) (c : Nat) (k : Core) : (d.setCore c k).budget = d.budget := rfl
@[simp] theorem Dev.setCore_leaveQ (d : Dev) (c : Nat) (k : Core) : (d.setCore c k).leaveQ = d.leaveQ := rfl
@[simp] theorem Dev.setCore_grants (d : Dev) (c : Nat) (k : Core) : (d.setCore c k).grants = d.grants := rfl
@[simp] theorem Dev.setCore_pw (d : Dev) (c : Nat) (k : Core) : (d.setCore c k).pw = d.pw := rfl
@[simp] theorem Dev.setCore_tru (d : Dev) (c : Nat) (k : Core) : (d.setCore c k).tru = d.tru := rfl
@[simp] theorem Dev.setCore_fw (d : Dev) (c : Nat) (k : Core) : (d.setCore c k).fw = d.fw := rfl
@[simp] theorem Dev.setCore_msix (d : Dev) (c : Nat) (k : Core) : (d.setCore c k).msix = d.msix := rfl
@[simp] theorem Dev.setCore_pba (d : Dev) (c : Nat) (k : Core) : (d.setCore c k).pba = d.pba := rfl
@[simp] theorem Dev.setCore_msixEn (d : Dev) (c : Nat) (k : Core) : (d.setCore c k).msixEn = d.msixEn := rfl
@[simp] theorem Dev.setCore_sent (d : Dev) (c : Nat) (k : Core) : (d.setCore c k).sent = d.sent := rfl
@[simp] theorem Dev.setCore_rdata (d : Dev) (c : Nat) (k : Core) : (d.setCore c k).rdata = d.rdata := rfl
@[simp] theorem Dev.setCore_rpoison (d : Dev) (c : Nat) (k : Core) : (d.setCore c k).rpoison = d.rpoison := rfl
@[simp] theorem Dev.setCore_rur (d : Dev) (c : Nat) (k : Core) : (d.setCore c k).rur = d.rur := rfl
@[simp] theorem Dev.setCore_rref (d : Dev) (c : Nat) (k : Core) : (d.setCore c k).rref = d.rref := rfl

/-! ## `Dev.onCore` -/

@[simp] theorem Dev.onCore_cycle (d : Dev) (c : Nat) (f : Core → Core) : (d.onCore c f).cycle = d.cycle := rfl
@[simp] theorem Dev.onCore_free (d : Dev) (c : Nat) (f : Core → Core) : (d.onCore c f).free = d.free := rfl
@[simp] theorem Dev.onCore_regs (d : Dev) (c : Nat) (f : Core → Core) : (d.onCore c f).regs = d.regs := rfl
@[simp] theorem Dev.onCore_evBits (d : Dev) (c : Nat) (f : Core → Core) : (d.onCore c f).evBits = d.evBits := rfl
@[simp] theorem Dev.onCore_evAt (d : Dev) (c : Nat) (f : Core → Core) : (d.onCore c f).evAt = d.evAt := rfl
@[simp] theorem Dev.onCore_shadow (d : Dev) (c : Nat) (f : Core → Core) : (d.onCore c f).shadow = d.shadow := rfl
@[simp] theorem Dev.onCore_mem (d : Dev) (c : Nat) (f : Core → Core) : (d.onCore c f).mem = d.mem := rfl
@[simp] theorem Dev.onCore_poison (d : Dev) (c : Nat) (f : Core → Core) : (d.onCore c f).poison = d.poison := rfl
@[simp] theorem Dev.onCore_errs (d : Dev) (c : Nat) (f : Core → Core) : (d.onCore c f).errs = d.errs := rfl
@[simp] theorem Dev.onCore_hostMem (d : Dev) (c : Nat) (f : Core → Core) : (d.onCore c f).hostMem = d.hostMem := rfl
@[simp] theorem Dev.onCore_hostPoison (d : Dev) (c : Nat) (f : Core → Core) : (d.onCore c f).hostPoison = d.hostPoison := rfl
@[simp] theorem Dev.onCore_cache (d : Dev) (c : Nat) (f : Core → Core) : (d.onCore c f).cache = d.cache := rfl
@[simp] theorem Dev.onCore_trx (d : Dev) (c : Nat) (f : Core → Core) : (d.onCore c f).trx = d.trx := rfl
@[simp] theorem Dev.onCore_sccCnt (d : Dev) (c : Nat) (f : Core → Core) : (d.onCore c f).sccCnt = d.sccCnt := rfl
@[simp] theorem Dev.onCore_lineCnt (d : Dev) (c : Nat) (f : Core → Core) : (d.onCore c f).lineCnt = d.lineCnt := rfl
@[simp] theorem Dev.onCore_stackT (d : Dev) (c : Nat) (f : Core → Core) : (d.onCore c f).stackT = d.stackT := rfl
@[simp] theorem Dev.onCore_redBuf (d : Dev) (c : Nat) (f : Core → Core) : (d.onCore c f).redBuf = d.redBuf := rfl
@[simp] theorem Dev.onCore_redNo (d : Dev) (c : Nat) (f : Core → Core) : (d.onCore c f).redNo = d.redNo := rfl
@[simp] theorem Dev.onCore_redFly (d : Dev) (c : Nat) (f : Core → Core) : (d.onCore c f).redFly = d.redFly := rfl
@[simp] theorem Dev.onCore_redOut (d : Dev) (c : Nat) (f : Core → Core) : (d.onCore c f).redOut = d.redOut := rfl
@[simp] theorem Dev.onCore_redLate (d : Dev) (c : Nat) (f : Core → Core) : (d.onCore c f).redLate = d.redLate := rfl
@[simp] theorem Dev.onCore_chans (d : Dev) (c : Nat) (f : Core → Core) : (d.onCore c f).chans = d.chans := rfl
@[simp] theorem Dev.onCore_images (d : Dev) (c : Nat) (f : Core → Core) : (d.onCore c f).images = d.images := rfl
@[simp] theorem Dev.onCore_imageNo (d : Dev) (c : Nat) (f : Core → Core) : (d.onCore c f).imageNo = d.imageNo := rfl
@[simp] theorem Dev.onCore_armT (d : Dev) (c : Nat) (f : Core → Core) : (d.onCore c f).armT = d.armT := rfl
@[simp] theorem Dev.onCore_readyT (d : Dev) (c : Nat) (f : Core → Core) : (d.onCore c f).readyT = d.readyT := rfl
@[simp] theorem Dev.onCore_armHwm (d : Dev) (c : Nat) (f : Core → Core) : (d.onCore c f).armHwm = d.armHwm := rfl
@[simp] theorem Dev.onCore_gateSends (d : Dev) (c : Nat) (f : Core → Core) : (d.onCore c f).gateSends = d.gateSends := rfl
@[simp] theorem Dev.onCore_owl (d : Dev) (c : Nat) (f : Core → Core) : (d.onCore c f).owl = d.owl := rfl
@[simp] theorem Dev.onCore_sqrJobs (d : Dev) (c : Nat) (f : Core → Core) : (d.onCore c f).sqrJobs = d.sqrJobs := rfl
@[simp] theorem Dev.onCore_sqrPages (d : Dev) (c : Nat) (f : Core → Core) : (d.onCore c f).sqrPages = d.sqrPages := rfl
@[simp] theorem Dev.onCore_sqrCopy (d : Dev) (c : Nat) (f : Core → Core) : (d.onCore c f).sqrCopy = d.sqrCopy := rfl
@[simp] theorem Dev.onCore_sqrHeld (d : Dev) (c : Nat) (f : Core → Core) : (d.onCore c f).sqrHeld = d.sqrHeld := rfl
@[simp] theorem Dev.onCore_sqrStage (d : Dev) (c : Nat) (f : Core → Core) : (d.onCore c f).sqrStage = d.sqrStage := rfl
@[simp] theorem Dev.onCore_sqrUsed (d : Dev) (c : Nat) (f : Core → Core) : (d.onCore c f).sqrUsed = d.sqrUsed := rfl
@[simp] theorem Dev.onCore_sqrFt (d : Dev) (c : Nat) (f : Core → Core) : (d.onCore c f).sqrFt = d.sqrFt := rfl
@[simp] theorem Dev.onCore_sqrQ (d : Dev) (c : Nat) (f : Core → Core) : (d.onCore c f).sqrQ = d.sqrQ := rfl
@[simp] theorem Dev.onCore_sqrTouch (d : Dev) (c : Nat) (f : Core → Core) : (d.onCore c f).sqrTouch = d.sqrTouch := rfl
@[simp] theorem Dev.onCore_sqrPrev (d : Dev) (c : Nat) (f : Core → Core) : (d.onCore c f).sqrPrev = d.sqrPrev := rfl
@[simp] theorem Dev.onCore_sqrOld (d : Dev) (c : Nat) (f : Core → Core) : (d.onCore c f).sqrOld = d.sqrOld := rfl
@[simp] theorem Dev.onCore_sqrCom (d : Dev) (c : Nat) (f : Core → Core) : (d.onCore c f).sqrCom = d.sqrCom := rfl
@[simp] theorem Dev.onCore_hwSends (d : Dev) (c : Nat) (f : Core → Core) : (d.onCore c f).hwSends = d.hwSends := rfl
@[simp] theorem Dev.onCore_fences (d : Dev) (c : Nat) (f : Core → Core) : (d.onCore c f).fences = d.fences := rfl
@[simp] theorem Dev.onCore_epochJob (d : Dev) (c : Nat) (f : Core → Core) : (d.onCore c f).epochJob = d.epochJob := rfl
@[simp] theorem Dev.onCore_fab (d : Dev) (c : Nat) (f : Core → Core) : (d.onCore c f).fab = d.fab := rfl
@[simp] theorem Dev.onCore_cb (d : Dev) (c : Nat) (f : Core → Core) : (d.onCore c f).cb = d.cb := rfl
@[simp] theorem Dev.onCore_tick (d : Dev) (c : Nat) (f : Core → Core) : (d.onCore c f).tick = d.tick := rfl
@[simp] theorem Dev.onCore_budget (d : Dev) (c : Nat) (f : Core → Core) : (d.onCore c f).budget = d.budget := rfl
@[simp] theorem Dev.onCore_leaveQ (d : Dev) (c : Nat) (f : Core → Core) : (d.onCore c f).leaveQ = d.leaveQ := rfl
@[simp] theorem Dev.onCore_grants (d : Dev) (c : Nat) (f : Core → Core) : (d.onCore c f).grants = d.grants := rfl
@[simp] theorem Dev.onCore_pw (d : Dev) (c : Nat) (f : Core → Core) : (d.onCore c f).pw = d.pw := rfl
@[simp] theorem Dev.onCore_tru (d : Dev) (c : Nat) (f : Core → Core) : (d.onCore c f).tru = d.tru := rfl
@[simp] theorem Dev.onCore_fw (d : Dev) (c : Nat) (f : Core → Core) : (d.onCore c f).fw = d.fw := rfl
@[simp] theorem Dev.onCore_msix (d : Dev) (c : Nat) (f : Core → Core) : (d.onCore c f).msix = d.msix := rfl
@[simp] theorem Dev.onCore_pba (d : Dev) (c : Nat) (f : Core → Core) : (d.onCore c f).pba = d.pba := rfl
@[simp] theorem Dev.onCore_msixEn (d : Dev) (c : Nat) (f : Core → Core) : (d.onCore c f).msixEn = d.msixEn := rfl
@[simp] theorem Dev.onCore_sent (d : Dev) (c : Nat) (f : Core → Core) : (d.onCore c f).sent = d.sent := rfl
@[simp] theorem Dev.onCore_rdata (d : Dev) (c : Nat) (f : Core → Core) : (d.onCore c f).rdata = d.rdata := rfl
@[simp] theorem Dev.onCore_rpoison (d : Dev) (c : Nat) (f : Core → Core) : (d.onCore c f).rpoison = d.rpoison := rfl
@[simp] theorem Dev.onCore_rur (d : Dev) (c : Nat) (f : Core → Core) : (d.onCore c f).rur = d.rur := rfl
@[simp] theorem Dev.onCore_rref (d : Dev) (c : Nat) (f : Core → Core) : (d.onCore c f).rref = d.rref := rfl

/-! ## `Dev.progress` -/

@[simp] theorem Dev.progress_cycle (d : Dev) (c : Nat) : (d.progress c).cycle = d.cycle := rfl
@[simp] theorem Dev.progress_free (d : Dev) (c : Nat) : (d.progress c).free = d.free := rfl
@[simp] theorem Dev.progress_regs (d : Dev) (c : Nat) : (d.progress c).regs = d.regs := rfl
@[simp] theorem Dev.progress_evBits (d : Dev) (c : Nat) : (d.progress c).evBits = d.evBits := rfl
@[simp] theorem Dev.progress_evAt (d : Dev) (c : Nat) : (d.progress c).evAt = d.evAt := rfl
@[simp] theorem Dev.progress_shadow (d : Dev) (c : Nat) : (d.progress c).shadow = d.shadow := rfl
@[simp] theorem Dev.progress_mem (d : Dev) (c : Nat) : (d.progress c).mem = d.mem := rfl
@[simp] theorem Dev.progress_poison (d : Dev) (c : Nat) : (d.progress c).poison = d.poison := rfl
@[simp] theorem Dev.progress_errs (d : Dev) (c : Nat) : (d.progress c).errs = d.errs := rfl
@[simp] theorem Dev.progress_hostMem (d : Dev) (c : Nat) : (d.progress c).hostMem = d.hostMem := rfl
@[simp] theorem Dev.progress_hostPoison (d : Dev) (c : Nat) : (d.progress c).hostPoison = d.hostPoison := rfl
@[simp] theorem Dev.progress_cache (d : Dev) (c : Nat) : (d.progress c).cache = d.cache := rfl
@[simp] theorem Dev.progress_trx (d : Dev) (c : Nat) : (d.progress c).trx = d.trx := rfl
@[simp] theorem Dev.progress_sccCnt (d : Dev) (c : Nat) : (d.progress c).sccCnt = d.sccCnt := rfl
@[simp] theorem Dev.progress_lineCnt (d : Dev) (c : Nat) : (d.progress c).lineCnt = d.lineCnt := rfl
@[simp] theorem Dev.progress_stackT (d : Dev) (c : Nat) : (d.progress c).stackT = d.stackT := rfl
@[simp] theorem Dev.progress_redBuf (d : Dev) (c : Nat) : (d.progress c).redBuf = d.redBuf := rfl
@[simp] theorem Dev.progress_redNo (d : Dev) (c : Nat) : (d.progress c).redNo = d.redNo := rfl
@[simp] theorem Dev.progress_redFly (d : Dev) (c : Nat) : (d.progress c).redFly = d.redFly := rfl
@[simp] theorem Dev.progress_redOut (d : Dev) (c : Nat) : (d.progress c).redOut = d.redOut := rfl
@[simp] theorem Dev.progress_redLate (d : Dev) (c : Nat) : (d.progress c).redLate = d.redLate := rfl
@[simp] theorem Dev.progress_chans (d : Dev) (c : Nat) : (d.progress c).chans = d.chans := rfl
@[simp] theorem Dev.progress_images (d : Dev) (c : Nat) : (d.progress c).images = d.images := rfl
@[simp] theorem Dev.progress_imageNo (d : Dev) (c : Nat) : (d.progress c).imageNo = d.imageNo := rfl
@[simp] theorem Dev.progress_armT (d : Dev) (c : Nat) : (d.progress c).armT = d.armT := rfl
@[simp] theorem Dev.progress_readyT (d : Dev) (c : Nat) : (d.progress c).readyT = d.readyT := rfl
@[simp] theorem Dev.progress_armHwm (d : Dev) (c : Nat) : (d.progress c).armHwm = d.armHwm := rfl
@[simp] theorem Dev.progress_gateSends (d : Dev) (c : Nat) : (d.progress c).gateSends = d.gateSends := rfl
@[simp] theorem Dev.progress_owl (d : Dev) (c : Nat) : (d.progress c).owl = d.owl := rfl
@[simp] theorem Dev.progress_sqrJobs (d : Dev) (c : Nat) : (d.progress c).sqrJobs = d.sqrJobs := rfl
@[simp] theorem Dev.progress_sqrPages (d : Dev) (c : Nat) : (d.progress c).sqrPages = d.sqrPages := rfl
@[simp] theorem Dev.progress_sqrCopy (d : Dev) (c : Nat) : (d.progress c).sqrCopy = d.sqrCopy := rfl
@[simp] theorem Dev.progress_sqrHeld (d : Dev) (c : Nat) : (d.progress c).sqrHeld = d.sqrHeld := rfl
@[simp] theorem Dev.progress_sqrStage (d : Dev) (c : Nat) : (d.progress c).sqrStage = d.sqrStage := rfl
@[simp] theorem Dev.progress_sqrUsed (d : Dev) (c : Nat) : (d.progress c).sqrUsed = d.sqrUsed := rfl
@[simp] theorem Dev.progress_sqrFt (d : Dev) (c : Nat) : (d.progress c).sqrFt = d.sqrFt := rfl
@[simp] theorem Dev.progress_sqrQ (d : Dev) (c : Nat) : (d.progress c).sqrQ = d.sqrQ := rfl
@[simp] theorem Dev.progress_sqrTouch (d : Dev) (c : Nat) : (d.progress c).sqrTouch = d.sqrTouch := rfl
@[simp] theorem Dev.progress_sqrPrev (d : Dev) (c : Nat) : (d.progress c).sqrPrev = d.sqrPrev := rfl
@[simp] theorem Dev.progress_sqrOld (d : Dev) (c : Nat) : (d.progress c).sqrOld = d.sqrOld := rfl
@[simp] theorem Dev.progress_sqrCom (d : Dev) (c : Nat) : (d.progress c).sqrCom = d.sqrCom := rfl
@[simp] theorem Dev.progress_hwSends (d : Dev) (c : Nat) : (d.progress c).hwSends = d.hwSends := rfl
@[simp] theorem Dev.progress_fences (d : Dev) (c : Nat) : (d.progress c).fences = d.fences := rfl
@[simp] theorem Dev.progress_epochJob (d : Dev) (c : Nat) : (d.progress c).epochJob = d.epochJob := rfl
@[simp] theorem Dev.progress_fab (d : Dev) (c : Nat) : (d.progress c).fab = d.fab := rfl
@[simp] theorem Dev.progress_cb (d : Dev) (c : Nat) : (d.progress c).cb = d.cb := rfl
@[simp] theorem Dev.progress_tick (d : Dev) (c : Nat) : (d.progress c).tick = d.tick := rfl
@[simp] theorem Dev.progress_budget (d : Dev) (c : Nat) : (d.progress c).budget = d.budget := rfl
@[simp] theorem Dev.progress_leaveQ (d : Dev) (c : Nat) : (d.progress c).leaveQ = d.leaveQ := rfl
@[simp] theorem Dev.progress_grants (d : Dev) (c : Nat) : (d.progress c).grants = d.grants := rfl
@[simp] theorem Dev.progress_pw (d : Dev) (c : Nat) : (d.progress c).pw = d.pw := rfl
@[simp] theorem Dev.progress_tru (d : Dev) (c : Nat) : (d.progress c).tru = d.tru := rfl
@[simp] theorem Dev.progress_fw (d : Dev) (c : Nat) : (d.progress c).fw = d.fw := rfl
@[simp] theorem Dev.progress_msix (d : Dev) (c : Nat) : (d.progress c).msix = d.msix := rfl
@[simp] theorem Dev.progress_pba (d : Dev) (c : Nat) : (d.progress c).pba = d.pba := rfl
@[simp] theorem Dev.progress_msixEn (d : Dev) (c : Nat) : (d.progress c).msixEn = d.msixEn := rfl
@[simp] theorem Dev.progress_sent (d : Dev) (c : Nat) : (d.progress c).sent = d.sent := rfl
@[simp] theorem Dev.progress_rdata (d : Dev) (c : Nat) : (d.progress c).rdata = d.rdata := rfl
@[simp] theorem Dev.progress_rpoison (d : Dev) (c : Nat) : (d.progress c).rpoison = d.rpoison := rfl
@[simp] theorem Dev.progress_rur (d : Dev) (c : Nat) : (d.progress c).rur = d.rur := rfl
@[simp] theorem Dev.progress_rref (d : Dev) (c : Nat) : (d.progress c).rref = d.rref := rfl

/-! ## `Dev.useFree` -/

@[simp] theorem Dev.useFree_cycle (d : Dev)  : (d.useFree ).cycle = d.cycle := rfl
@[simp] theorem Dev.useFree_regs (d : Dev)  : (d.useFree ).regs = d.regs := rfl
@[simp] theorem Dev.useFree_evBits (d : Dev)  : (d.useFree ).evBits = d.evBits := rfl
@[simp] theorem Dev.useFree_evAt (d : Dev)  : (d.useFree ).evAt = d.evAt := rfl
@[simp] theorem Dev.useFree_shadow (d : Dev)  : (d.useFree ).shadow = d.shadow := rfl
@[simp] theorem Dev.useFree_mem (d : Dev)  : (d.useFree ).mem = d.mem := rfl
@[simp] theorem Dev.useFree_poison (d : Dev)  : (d.useFree ).poison = d.poison := rfl
@[simp] theorem Dev.useFree_errs (d : Dev)  : (d.useFree ).errs = d.errs := rfl
@[simp] theorem Dev.useFree_hostMem (d : Dev)  : (d.useFree ).hostMem = d.hostMem := rfl
@[simp] theorem Dev.useFree_hostPoison (d : Dev)  : (d.useFree ).hostPoison = d.hostPoison := rfl
@[simp] theorem Dev.useFree_cache (d : Dev)  : (d.useFree ).cache = d.cache := rfl
@[simp] theorem Dev.useFree_trx (d : Dev)  : (d.useFree ).trx = d.trx := rfl
@[simp] theorem Dev.useFree_sccCnt (d : Dev)  : (d.useFree ).sccCnt = d.sccCnt := rfl
@[simp] theorem Dev.useFree_lineCnt (d : Dev)  : (d.useFree ).lineCnt = d.lineCnt := rfl
@[simp] theorem Dev.useFree_stackT (d : Dev)  : (d.useFree ).stackT = d.stackT := rfl
@[simp] theorem Dev.useFree_cores (d : Dev)  : (d.useFree ).cores = d.cores := rfl
@[simp] theorem Dev.useFree_redBuf (d : Dev)  : (d.useFree ).redBuf = d.redBuf := rfl
@[simp] theorem Dev.useFree_redNo (d : Dev)  : (d.useFree ).redNo = d.redNo := rfl
@[simp] theorem Dev.useFree_redFly (d : Dev)  : (d.useFree ).redFly = d.redFly := rfl
@[simp] theorem Dev.useFree_redOut (d : Dev)  : (d.useFree ).redOut = d.redOut := rfl
@[simp] theorem Dev.useFree_redLate (d : Dev)  : (d.useFree ).redLate = d.redLate := rfl
@[simp] theorem Dev.useFree_chans (d : Dev)  : (d.useFree ).chans = d.chans := rfl
@[simp] theorem Dev.useFree_images (d : Dev)  : (d.useFree ).images = d.images := rfl
@[simp] theorem Dev.useFree_imageNo (d : Dev)  : (d.useFree ).imageNo = d.imageNo := rfl
@[simp] theorem Dev.useFree_armT (d : Dev)  : (d.useFree ).armT = d.armT := rfl
@[simp] theorem Dev.useFree_readyT (d : Dev)  : (d.useFree ).readyT = d.readyT := rfl
@[simp] theorem Dev.useFree_armHwm (d : Dev)  : (d.useFree ).armHwm = d.armHwm := rfl
@[simp] theorem Dev.useFree_gateSends (d : Dev)  : (d.useFree ).gateSends = d.gateSends := rfl
@[simp] theorem Dev.useFree_owl (d : Dev)  : (d.useFree ).owl = d.owl := rfl
@[simp] theorem Dev.useFree_sqrJobs (d : Dev)  : (d.useFree ).sqrJobs = d.sqrJobs := rfl
@[simp] theorem Dev.useFree_sqrPages (d : Dev)  : (d.useFree ).sqrPages = d.sqrPages := rfl
@[simp] theorem Dev.useFree_sqrCopy (d : Dev)  : (d.useFree ).sqrCopy = d.sqrCopy := rfl
@[simp] theorem Dev.useFree_sqrHeld (d : Dev)  : (d.useFree ).sqrHeld = d.sqrHeld := rfl
@[simp] theorem Dev.useFree_sqrStage (d : Dev)  : (d.useFree ).sqrStage = d.sqrStage := rfl
@[simp] theorem Dev.useFree_sqrUsed (d : Dev)  : (d.useFree ).sqrUsed = d.sqrUsed := rfl
@[simp] theorem Dev.useFree_sqrFt (d : Dev)  : (d.useFree ).sqrFt = d.sqrFt := rfl
@[simp] theorem Dev.useFree_sqrQ (d : Dev)  : (d.useFree ).sqrQ = d.sqrQ := rfl
@[simp] theorem Dev.useFree_sqrTouch (d : Dev)  : (d.useFree ).sqrTouch = d.sqrTouch := rfl
@[simp] theorem Dev.useFree_sqrPrev (d : Dev)  : (d.useFree ).sqrPrev = d.sqrPrev := rfl
@[simp] theorem Dev.useFree_sqrOld (d : Dev)  : (d.useFree ).sqrOld = d.sqrOld := rfl
@[simp] theorem Dev.useFree_sqrCom (d : Dev)  : (d.useFree ).sqrCom = d.sqrCom := rfl
@[simp] theorem Dev.useFree_hwSends (d : Dev)  : (d.useFree ).hwSends = d.hwSends := rfl
@[simp] theorem Dev.useFree_fences (d : Dev)  : (d.useFree ).fences = d.fences := rfl
@[simp] theorem Dev.useFree_epochJob (d : Dev)  : (d.useFree ).epochJob = d.epochJob := rfl
@[simp] theorem Dev.useFree_fab (d : Dev)  : (d.useFree ).fab = d.fab := rfl
@[simp] theorem Dev.useFree_cb (d : Dev)  : (d.useFree ).cb = d.cb := rfl
@[simp] theorem Dev.useFree_tick (d : Dev)  : (d.useFree ).tick = d.tick := rfl
@[simp] theorem Dev.useFree_budget (d : Dev)  : (d.useFree ).budget = d.budget := rfl
@[simp] theorem Dev.useFree_leaveQ (d : Dev)  : (d.useFree ).leaveQ = d.leaveQ := rfl
@[simp] theorem Dev.useFree_grants (d : Dev)  : (d.useFree ).grants = d.grants := rfl
@[simp] theorem Dev.useFree_pw (d : Dev)  : (d.useFree ).pw = d.pw := rfl
@[simp] theorem Dev.useFree_tru (d : Dev)  : (d.useFree ).tru = d.tru := rfl
@[simp] theorem Dev.useFree_fw (d : Dev)  : (d.useFree ).fw = d.fw := rfl
@[simp] theorem Dev.useFree_msix (d : Dev)  : (d.useFree ).msix = d.msix := rfl
@[simp] theorem Dev.useFree_pba (d : Dev)  : (d.useFree ).pba = d.pba := rfl
@[simp] theorem Dev.useFree_msixEn (d : Dev)  : (d.useFree ).msixEn = d.msixEn := rfl
@[simp] theorem Dev.useFree_sent (d : Dev)  : (d.useFree ).sent = d.sent := rfl
@[simp] theorem Dev.useFree_rdata (d : Dev)  : (d.useFree ).rdata = d.rdata := rfl
@[simp] theorem Dev.useFree_rpoison (d : Dev)  : (d.useFree ).rpoison = d.rpoison := rfl
@[simp] theorem Dev.useFree_rur (d : Dev)  : (d.useFree ).rur = d.rur := rfl
@[simp] theorem Dev.useFree_rref (d : Dev)  : (d.useFree ).rref = d.rref := rfl

/-! ## `Dev.setPoison` -/

@[simp] theorem Dev.setPoison_cycle (d : Dev) (b : Nat) (p : Bool) : (d.setPoison b p).cycle = d.cycle := rfl
@[simp] theorem Dev.setPoison_free (d : Dev) (b : Nat) (p : Bool) : (d.setPoison b p).free = d.free := rfl
@[simp] theorem Dev.setPoison_regs (d : Dev) (b : Nat) (p : Bool) : (d.setPoison b p).regs = d.regs := rfl
@[simp] theorem Dev.setPoison_evBits (d : Dev) (b : Nat) (p : Bool) : (d.setPoison b p).evBits = d.evBits := rfl
@[simp] theorem Dev.setPoison_evAt (d : Dev) (b : Nat) (p : Bool) : (d.setPoison b p).evAt = d.evAt := rfl
@[simp] theorem Dev.setPoison_shadow (d : Dev) (b : Nat) (p : Bool) : (d.setPoison b p).shadow = d.shadow := rfl
@[simp] theorem Dev.setPoison_mem (d : Dev) (b : Nat) (p : Bool) : (d.setPoison b p).mem = d.mem := rfl
@[simp] theorem Dev.setPoison_errs (d : Dev) (b : Nat) (p : Bool) : (d.setPoison b p).errs = d.errs := rfl
@[simp] theorem Dev.setPoison_hostMem (d : Dev) (b : Nat) (p : Bool) : (d.setPoison b p).hostMem = d.hostMem := rfl
@[simp] theorem Dev.setPoison_hostPoison (d : Dev) (b : Nat) (p : Bool) : (d.setPoison b p).hostPoison = d.hostPoison := rfl
@[simp] theorem Dev.setPoison_cache (d : Dev) (b : Nat) (p : Bool) : (d.setPoison b p).cache = d.cache := rfl
@[simp] theorem Dev.setPoison_trx (d : Dev) (b : Nat) (p : Bool) : (d.setPoison b p).trx = d.trx := rfl
@[simp] theorem Dev.setPoison_sccCnt (d : Dev) (b : Nat) (p : Bool) : (d.setPoison b p).sccCnt = d.sccCnt := rfl
@[simp] theorem Dev.setPoison_lineCnt (d : Dev) (b : Nat) (p : Bool) : (d.setPoison b p).lineCnt = d.lineCnt := rfl
@[simp] theorem Dev.setPoison_stackT (d : Dev) (b : Nat) (p : Bool) : (d.setPoison b p).stackT = d.stackT := rfl
@[simp] theorem Dev.setPoison_cores (d : Dev) (b : Nat) (p : Bool) : (d.setPoison b p).cores = d.cores := rfl
@[simp] theorem Dev.setPoison_redBuf (d : Dev) (b : Nat) (p : Bool) : (d.setPoison b p).redBuf = d.redBuf := rfl
@[simp] theorem Dev.setPoison_redNo (d : Dev) (b : Nat) (p : Bool) : (d.setPoison b p).redNo = d.redNo := rfl
@[simp] theorem Dev.setPoison_redFly (d : Dev) (b : Nat) (p : Bool) : (d.setPoison b p).redFly = d.redFly := rfl
@[simp] theorem Dev.setPoison_redOut (d : Dev) (b : Nat) (p : Bool) : (d.setPoison b p).redOut = d.redOut := rfl
@[simp] theorem Dev.setPoison_redLate (d : Dev) (b : Nat) (p : Bool) : (d.setPoison b p).redLate = d.redLate := rfl
@[simp] theorem Dev.setPoison_chans (d : Dev) (b : Nat) (p : Bool) : (d.setPoison b p).chans = d.chans := rfl
@[simp] theorem Dev.setPoison_images (d : Dev) (b : Nat) (p : Bool) : (d.setPoison b p).images = d.images := rfl
@[simp] theorem Dev.setPoison_imageNo (d : Dev) (b : Nat) (p : Bool) : (d.setPoison b p).imageNo = d.imageNo := rfl
@[simp] theorem Dev.setPoison_armT (d : Dev) (b : Nat) (p : Bool) : (d.setPoison b p).armT = d.armT := rfl
@[simp] theorem Dev.setPoison_readyT (d : Dev) (b : Nat) (p : Bool) : (d.setPoison b p).readyT = d.readyT := rfl
@[simp] theorem Dev.setPoison_armHwm (d : Dev) (b : Nat) (p : Bool) : (d.setPoison b p).armHwm = d.armHwm := rfl
@[simp] theorem Dev.setPoison_gateSends (d : Dev) (b : Nat) (p : Bool) : (d.setPoison b p).gateSends = d.gateSends := rfl
@[simp] theorem Dev.setPoison_owl (d : Dev) (b : Nat) (p : Bool) : (d.setPoison b p).owl = d.owl := rfl
@[simp] theorem Dev.setPoison_sqrJobs (d : Dev) (b : Nat) (p : Bool) : (d.setPoison b p).sqrJobs = d.sqrJobs := rfl
@[simp] theorem Dev.setPoison_sqrPages (d : Dev) (b : Nat) (p : Bool) : (d.setPoison b p).sqrPages = d.sqrPages := rfl
@[simp] theorem Dev.setPoison_sqrCopy (d : Dev) (b : Nat) (p : Bool) : (d.setPoison b p).sqrCopy = d.sqrCopy := rfl
@[simp] theorem Dev.setPoison_sqrHeld (d : Dev) (b : Nat) (p : Bool) : (d.setPoison b p).sqrHeld = d.sqrHeld := rfl
@[simp] theorem Dev.setPoison_sqrStage (d : Dev) (b : Nat) (p : Bool) : (d.setPoison b p).sqrStage = d.sqrStage := rfl
@[simp] theorem Dev.setPoison_sqrUsed (d : Dev) (b : Nat) (p : Bool) : (d.setPoison b p).sqrUsed = d.sqrUsed := rfl
@[simp] theorem Dev.setPoison_sqrFt (d : Dev) (b : Nat) (p : Bool) : (d.setPoison b p).sqrFt = d.sqrFt := rfl
@[simp] theorem Dev.setPoison_sqrQ (d : Dev) (b : Nat) (p : Bool) : (d.setPoison b p).sqrQ = d.sqrQ := rfl
@[simp] theorem Dev.setPoison_sqrTouch (d : Dev) (b : Nat) (p : Bool) : (d.setPoison b p).sqrTouch = d.sqrTouch := rfl
@[simp] theorem Dev.setPoison_sqrPrev (d : Dev) (b : Nat) (p : Bool) : (d.setPoison b p).sqrPrev = d.sqrPrev := rfl
@[simp] theorem Dev.setPoison_sqrOld (d : Dev) (b : Nat) (p : Bool) : (d.setPoison b p).sqrOld = d.sqrOld := rfl
@[simp] theorem Dev.setPoison_sqrCom (d : Dev) (b : Nat) (p : Bool) : (d.setPoison b p).sqrCom = d.sqrCom := rfl
@[simp] theorem Dev.setPoison_hwSends (d : Dev) (b : Nat) (p : Bool) : (d.setPoison b p).hwSends = d.hwSends := rfl
@[simp] theorem Dev.setPoison_fences (d : Dev) (b : Nat) (p : Bool) : (d.setPoison b p).fences = d.fences := rfl
@[simp] theorem Dev.setPoison_epochJob (d : Dev) (b : Nat) (p : Bool) : (d.setPoison b p).epochJob = d.epochJob := rfl
@[simp] theorem Dev.setPoison_fab (d : Dev) (b : Nat) (p : Bool) : (d.setPoison b p).fab = d.fab := rfl
@[simp] theorem Dev.setPoison_cb (d : Dev) (b : Nat) (p : Bool) : (d.setPoison b p).cb = d.cb := rfl
@[simp] theorem Dev.setPoison_tick (d : Dev) (b : Nat) (p : Bool) : (d.setPoison b p).tick = d.tick := rfl
@[simp] theorem Dev.setPoison_budget (d : Dev) (b : Nat) (p : Bool) : (d.setPoison b p).budget = d.budget := rfl
@[simp] theorem Dev.setPoison_leaveQ (d : Dev) (b : Nat) (p : Bool) : (d.setPoison b p).leaveQ = d.leaveQ := rfl
@[simp] theorem Dev.setPoison_grants (d : Dev) (b : Nat) (p : Bool) : (d.setPoison b p).grants = d.grants := rfl
@[simp] theorem Dev.setPoison_pw (d : Dev) (b : Nat) (p : Bool) : (d.setPoison b p).pw = d.pw := rfl
@[simp] theorem Dev.setPoison_tru (d : Dev) (b : Nat) (p : Bool) : (d.setPoison b p).tru = d.tru := rfl
@[simp] theorem Dev.setPoison_fw (d : Dev) (b : Nat) (p : Bool) : (d.setPoison b p).fw = d.fw := rfl
@[simp] theorem Dev.setPoison_msix (d : Dev) (b : Nat) (p : Bool) : (d.setPoison b p).msix = d.msix := rfl
@[simp] theorem Dev.setPoison_pba (d : Dev) (b : Nat) (p : Bool) : (d.setPoison b p).pba = d.pba := rfl
@[simp] theorem Dev.setPoison_msixEn (d : Dev) (b : Nat) (p : Bool) : (d.setPoison b p).msixEn = d.msixEn := rfl
@[simp] theorem Dev.setPoison_sent (d : Dev) (b : Nat) (p : Bool) : (d.setPoison b p).sent = d.sent := rfl
@[simp] theorem Dev.setPoison_rdata (d : Dev) (b : Nat) (p : Bool) : (d.setPoison b p).rdata = d.rdata := rfl
@[simp] theorem Dev.setPoison_rpoison (d : Dev) (b : Nat) (p : Bool) : (d.setPoison b p).rpoison = d.rpoison := rfl
@[simp] theorem Dev.setPoison_rur (d : Dev) (b : Nat) (p : Bool) : (d.setPoison b p).rur = d.rur := rfl
@[simp] theorem Dev.setPoison_rref (d : Dev) (b : Nat) (p : Bool) : (d.setPoison b p).rref = d.rref := rfl

/-! ## `Dev.setStack` -/

@[simp] theorem Dev.setStack_cycle (d : Dev) (i : Nat) (k : Stack) : (d.setStack i k).cycle = d.cycle := rfl
@[simp] theorem Dev.setStack_free (d : Dev) (i : Nat) (k : Stack) : (d.setStack i k).free = d.free := rfl
@[simp] theorem Dev.setStack_regs (d : Dev) (i : Nat) (k : Stack) : (d.setStack i k).regs = d.regs := rfl
@[simp] theorem Dev.setStack_evBits (d : Dev) (i : Nat) (k : Stack) : (d.setStack i k).evBits = d.evBits := rfl
@[simp] theorem Dev.setStack_evAt (d : Dev) (i : Nat) (k : Stack) : (d.setStack i k).evAt = d.evAt := rfl
@[simp] theorem Dev.setStack_shadow (d : Dev) (i : Nat) (k : Stack) : (d.setStack i k).shadow = d.shadow := rfl
@[simp] theorem Dev.setStack_mem (d : Dev) (i : Nat) (k : Stack) : (d.setStack i k).mem = d.mem := rfl
@[simp] theorem Dev.setStack_poison (d : Dev) (i : Nat) (k : Stack) : (d.setStack i k).poison = d.poison := rfl
@[simp] theorem Dev.setStack_errs (d : Dev) (i : Nat) (k : Stack) : (d.setStack i k).errs = d.errs := rfl
@[simp] theorem Dev.setStack_hostMem (d : Dev) (i : Nat) (k : Stack) : (d.setStack i k).hostMem = d.hostMem := rfl
@[simp] theorem Dev.setStack_hostPoison (d : Dev) (i : Nat) (k : Stack) : (d.setStack i k).hostPoison = d.hostPoison := rfl
@[simp] theorem Dev.setStack_cache (d : Dev) (i : Nat) (k : Stack) : (d.setStack i k).cache = d.cache := rfl
@[simp] theorem Dev.setStack_trx (d : Dev) (i : Nat) (k : Stack) : (d.setStack i k).trx = d.trx := rfl
@[simp] theorem Dev.setStack_sccCnt (d : Dev) (i : Nat) (k : Stack) : (d.setStack i k).sccCnt = d.sccCnt := rfl
@[simp] theorem Dev.setStack_lineCnt (d : Dev) (i : Nat) (k : Stack) : (d.setStack i k).lineCnt = d.lineCnt := rfl
@[simp] theorem Dev.setStack_cores (d : Dev) (i : Nat) (k : Stack) : (d.setStack i k).cores = d.cores := rfl
@[simp] theorem Dev.setStack_redBuf (d : Dev) (i : Nat) (k : Stack) : (d.setStack i k).redBuf = d.redBuf := rfl
@[simp] theorem Dev.setStack_redNo (d : Dev) (i : Nat) (k : Stack) : (d.setStack i k).redNo = d.redNo := rfl
@[simp] theorem Dev.setStack_redFly (d : Dev) (i : Nat) (k : Stack) : (d.setStack i k).redFly = d.redFly := rfl
@[simp] theorem Dev.setStack_redOut (d : Dev) (i : Nat) (k : Stack) : (d.setStack i k).redOut = d.redOut := rfl
@[simp] theorem Dev.setStack_redLate (d : Dev) (i : Nat) (k : Stack) : (d.setStack i k).redLate = d.redLate := rfl
@[simp] theorem Dev.setStack_chans (d : Dev) (i : Nat) (k : Stack) : (d.setStack i k).chans = d.chans := rfl
@[simp] theorem Dev.setStack_images (d : Dev) (i : Nat) (k : Stack) : (d.setStack i k).images = d.images := rfl
@[simp] theorem Dev.setStack_imageNo (d : Dev) (i : Nat) (k : Stack) : (d.setStack i k).imageNo = d.imageNo := rfl
@[simp] theorem Dev.setStack_armT (d : Dev) (i : Nat) (k : Stack) : (d.setStack i k).armT = d.armT := rfl
@[simp] theorem Dev.setStack_readyT (d : Dev) (i : Nat) (k : Stack) : (d.setStack i k).readyT = d.readyT := rfl
@[simp] theorem Dev.setStack_armHwm (d : Dev) (i : Nat) (k : Stack) : (d.setStack i k).armHwm = d.armHwm := rfl
@[simp] theorem Dev.setStack_gateSends (d : Dev) (i : Nat) (k : Stack) : (d.setStack i k).gateSends = d.gateSends := rfl
@[simp] theorem Dev.setStack_owl (d : Dev) (i : Nat) (k : Stack) : (d.setStack i k).owl = d.owl := rfl
@[simp] theorem Dev.setStack_sqrJobs (d : Dev) (i : Nat) (k : Stack) : (d.setStack i k).sqrJobs = d.sqrJobs := rfl
@[simp] theorem Dev.setStack_sqrPages (d : Dev) (i : Nat) (k : Stack) : (d.setStack i k).sqrPages = d.sqrPages := rfl
@[simp] theorem Dev.setStack_sqrCopy (d : Dev) (i : Nat) (k : Stack) : (d.setStack i k).sqrCopy = d.sqrCopy := rfl
@[simp] theorem Dev.setStack_sqrHeld (d : Dev) (i : Nat) (k : Stack) : (d.setStack i k).sqrHeld = d.sqrHeld := rfl
@[simp] theorem Dev.setStack_sqrStage (d : Dev) (i : Nat) (k : Stack) : (d.setStack i k).sqrStage = d.sqrStage := rfl
@[simp] theorem Dev.setStack_sqrUsed (d : Dev) (i : Nat) (k : Stack) : (d.setStack i k).sqrUsed = d.sqrUsed := rfl
@[simp] theorem Dev.setStack_sqrFt (d : Dev) (i : Nat) (k : Stack) : (d.setStack i k).sqrFt = d.sqrFt := rfl
@[simp] theorem Dev.setStack_sqrQ (d : Dev) (i : Nat) (k : Stack) : (d.setStack i k).sqrQ = d.sqrQ := rfl
@[simp] theorem Dev.setStack_sqrTouch (d : Dev) (i : Nat) (k : Stack) : (d.setStack i k).sqrTouch = d.sqrTouch := rfl
@[simp] theorem Dev.setStack_sqrPrev (d : Dev) (i : Nat) (k : Stack) : (d.setStack i k).sqrPrev = d.sqrPrev := rfl
@[simp] theorem Dev.setStack_sqrOld (d : Dev) (i : Nat) (k : Stack) : (d.setStack i k).sqrOld = d.sqrOld := rfl
@[simp] theorem Dev.setStack_sqrCom (d : Dev) (i : Nat) (k : Stack) : (d.setStack i k).sqrCom = d.sqrCom := rfl
@[simp] theorem Dev.setStack_hwSends (d : Dev) (i : Nat) (k : Stack) : (d.setStack i k).hwSends = d.hwSends := rfl
@[simp] theorem Dev.setStack_fences (d : Dev) (i : Nat) (k : Stack) : (d.setStack i k).fences = d.fences := rfl
@[simp] theorem Dev.setStack_epochJob (d : Dev) (i : Nat) (k : Stack) : (d.setStack i k).epochJob = d.epochJob := rfl
@[simp] theorem Dev.setStack_fab (d : Dev) (i : Nat) (k : Stack) : (d.setStack i k).fab = d.fab := rfl
@[simp] theorem Dev.setStack_cb (d : Dev) (i : Nat) (k : Stack) : (d.setStack i k).cb = d.cb := rfl
@[simp] theorem Dev.setStack_tick (d : Dev) (i : Nat) (k : Stack) : (d.setStack i k).tick = d.tick := rfl
@[simp] theorem Dev.setStack_budget (d : Dev) (i : Nat) (k : Stack) : (d.setStack i k).budget = d.budget := rfl
@[simp] theorem Dev.setStack_leaveQ (d : Dev) (i : Nat) (k : Stack) : (d.setStack i k).leaveQ = d.leaveQ := rfl
@[simp] theorem Dev.setStack_grants (d : Dev) (i : Nat) (k : Stack) : (d.setStack i k).grants = d.grants := rfl
@[simp] theorem Dev.setStack_pw (d : Dev) (i : Nat) (k : Stack) : (d.setStack i k).pw = d.pw := rfl
@[simp] theorem Dev.setStack_tru (d : Dev) (i : Nat) (k : Stack) : (d.setStack i k).tru = d.tru := rfl
@[simp] theorem Dev.setStack_fw (d : Dev) (i : Nat) (k : Stack) : (d.setStack i k).fw = d.fw := rfl
@[simp] theorem Dev.setStack_msix (d : Dev) (i : Nat) (k : Stack) : (d.setStack i k).msix = d.msix := rfl
@[simp] theorem Dev.setStack_pba (d : Dev) (i : Nat) (k : Stack) : (d.setStack i k).pba = d.pba := rfl
@[simp] theorem Dev.setStack_msixEn (d : Dev) (i : Nat) (k : Stack) : (d.setStack i k).msixEn = d.msixEn := rfl
@[simp] theorem Dev.setStack_sent (d : Dev) (i : Nat) (k : Stack) : (d.setStack i k).sent = d.sent := rfl
@[simp] theorem Dev.setStack_rdata (d : Dev) (i : Nat) (k : Stack) : (d.setStack i k).rdata = d.rdata := rfl
@[simp] theorem Dev.setStack_rpoison (d : Dev) (i : Nat) (k : Stack) : (d.setStack i k).rpoison = d.rpoison := rfl
@[simp] theorem Dev.setStack_rur (d : Dev) (i : Nat) (k : Stack) : (d.setStack i k).rur = d.rur := rfl
@[simp] theorem Dev.setStack_rref (d : Dev) (i : Nat) (k : Stack) : (d.setStack i k).rref = d.rref := rfl

/-! ## `Dev.setChan` -/

@[simp] theorem Dev.setChan_cycle (d : Dev) (ch : Nat) (k : DmaChan) : (d.setChan ch k).cycle = d.cycle := rfl
@[simp] theorem Dev.setChan_free (d : Dev) (ch : Nat) (k : DmaChan) : (d.setChan ch k).free = d.free := rfl
@[simp] theorem Dev.setChan_regs (d : Dev) (ch : Nat) (k : DmaChan) : (d.setChan ch k).regs = d.regs := rfl
@[simp] theorem Dev.setChan_evBits (d : Dev) (ch : Nat) (k : DmaChan) : (d.setChan ch k).evBits = d.evBits := rfl
@[simp] theorem Dev.setChan_evAt (d : Dev) (ch : Nat) (k : DmaChan) : (d.setChan ch k).evAt = d.evAt := rfl
@[simp] theorem Dev.setChan_shadow (d : Dev) (ch : Nat) (k : DmaChan) : (d.setChan ch k).shadow = d.shadow := rfl
@[simp] theorem Dev.setChan_mem (d : Dev) (ch : Nat) (k : DmaChan) : (d.setChan ch k).mem = d.mem := rfl
@[simp] theorem Dev.setChan_poison (d : Dev) (ch : Nat) (k : DmaChan) : (d.setChan ch k).poison = d.poison := rfl
@[simp] theorem Dev.setChan_errs (d : Dev) (ch : Nat) (k : DmaChan) : (d.setChan ch k).errs = d.errs := rfl
@[simp] theorem Dev.setChan_hostMem (d : Dev) (ch : Nat) (k : DmaChan) : (d.setChan ch k).hostMem = d.hostMem := rfl
@[simp] theorem Dev.setChan_hostPoison (d : Dev) (ch : Nat) (k : DmaChan) : (d.setChan ch k).hostPoison = d.hostPoison := rfl
@[simp] theorem Dev.setChan_cache (d : Dev) (ch : Nat) (k : DmaChan) : (d.setChan ch k).cache = d.cache := rfl
@[simp] theorem Dev.setChan_trx (d : Dev) (ch : Nat) (k : DmaChan) : (d.setChan ch k).trx = d.trx := rfl
@[simp] theorem Dev.setChan_sccCnt (d : Dev) (ch : Nat) (k : DmaChan) : (d.setChan ch k).sccCnt = d.sccCnt := rfl
@[simp] theorem Dev.setChan_lineCnt (d : Dev) (ch : Nat) (k : DmaChan) : (d.setChan ch k).lineCnt = d.lineCnt := rfl
@[simp] theorem Dev.setChan_stackT (d : Dev) (ch : Nat) (k : DmaChan) : (d.setChan ch k).stackT = d.stackT := rfl
@[simp] theorem Dev.setChan_cores (d : Dev) (ch : Nat) (k : DmaChan) : (d.setChan ch k).cores = d.cores := rfl
@[simp] theorem Dev.setChan_redBuf (d : Dev) (ch : Nat) (k : DmaChan) : (d.setChan ch k).redBuf = d.redBuf := rfl
@[simp] theorem Dev.setChan_redNo (d : Dev) (ch : Nat) (k : DmaChan) : (d.setChan ch k).redNo = d.redNo := rfl
@[simp] theorem Dev.setChan_redFly (d : Dev) (ch : Nat) (k : DmaChan) : (d.setChan ch k).redFly = d.redFly := rfl
@[simp] theorem Dev.setChan_redOut (d : Dev) (ch : Nat) (k : DmaChan) : (d.setChan ch k).redOut = d.redOut := rfl
@[simp] theorem Dev.setChan_redLate (d : Dev) (ch : Nat) (k : DmaChan) : (d.setChan ch k).redLate = d.redLate := rfl
@[simp] theorem Dev.setChan_images (d : Dev) (ch : Nat) (k : DmaChan) : (d.setChan ch k).images = d.images := rfl
@[simp] theorem Dev.setChan_imageNo (d : Dev) (ch : Nat) (k : DmaChan) : (d.setChan ch k).imageNo = d.imageNo := rfl
@[simp] theorem Dev.setChan_armT (d : Dev) (ch : Nat) (k : DmaChan) : (d.setChan ch k).armT = d.armT := rfl
@[simp] theorem Dev.setChan_readyT (d : Dev) (ch : Nat) (k : DmaChan) : (d.setChan ch k).readyT = d.readyT := rfl
@[simp] theorem Dev.setChan_armHwm (d : Dev) (ch : Nat) (k : DmaChan) : (d.setChan ch k).armHwm = d.armHwm := rfl
@[simp] theorem Dev.setChan_gateSends (d : Dev) (ch : Nat) (k : DmaChan) : (d.setChan ch k).gateSends = d.gateSends := rfl
@[simp] theorem Dev.setChan_owl (d : Dev) (ch : Nat) (k : DmaChan) : (d.setChan ch k).owl = d.owl := rfl
@[simp] theorem Dev.setChan_sqrJobs (d : Dev) (ch : Nat) (k : DmaChan) : (d.setChan ch k).sqrJobs = d.sqrJobs := rfl
@[simp] theorem Dev.setChan_sqrPages (d : Dev) (ch : Nat) (k : DmaChan) : (d.setChan ch k).sqrPages = d.sqrPages := rfl
@[simp] theorem Dev.setChan_sqrCopy (d : Dev) (ch : Nat) (k : DmaChan) : (d.setChan ch k).sqrCopy = d.sqrCopy := rfl
@[simp] theorem Dev.setChan_sqrHeld (d : Dev) (ch : Nat) (k : DmaChan) : (d.setChan ch k).sqrHeld = d.sqrHeld := rfl
@[simp] theorem Dev.setChan_sqrStage (d : Dev) (ch : Nat) (k : DmaChan) : (d.setChan ch k).sqrStage = d.sqrStage := rfl
@[simp] theorem Dev.setChan_sqrUsed (d : Dev) (ch : Nat) (k : DmaChan) : (d.setChan ch k).sqrUsed = d.sqrUsed := rfl
@[simp] theorem Dev.setChan_sqrFt (d : Dev) (ch : Nat) (k : DmaChan) : (d.setChan ch k).sqrFt = d.sqrFt := rfl
@[simp] theorem Dev.setChan_sqrQ (d : Dev) (ch : Nat) (k : DmaChan) : (d.setChan ch k).sqrQ = d.sqrQ := rfl
@[simp] theorem Dev.setChan_sqrTouch (d : Dev) (ch : Nat) (k : DmaChan) : (d.setChan ch k).sqrTouch = d.sqrTouch := rfl
@[simp] theorem Dev.setChan_sqrPrev (d : Dev) (ch : Nat) (k : DmaChan) : (d.setChan ch k).sqrPrev = d.sqrPrev := rfl
@[simp] theorem Dev.setChan_sqrOld (d : Dev) (ch : Nat) (k : DmaChan) : (d.setChan ch k).sqrOld = d.sqrOld := rfl
@[simp] theorem Dev.setChan_sqrCom (d : Dev) (ch : Nat) (k : DmaChan) : (d.setChan ch k).sqrCom = d.sqrCom := rfl
@[simp] theorem Dev.setChan_hwSends (d : Dev) (ch : Nat) (k : DmaChan) : (d.setChan ch k).hwSends = d.hwSends := rfl
@[simp] theorem Dev.setChan_fences (d : Dev) (ch : Nat) (k : DmaChan) : (d.setChan ch k).fences = d.fences := rfl
@[simp] theorem Dev.setChan_epochJob (d : Dev) (ch : Nat) (k : DmaChan) : (d.setChan ch k).epochJob = d.epochJob := rfl
@[simp] theorem Dev.setChan_fab (d : Dev) (ch : Nat) (k : DmaChan) : (d.setChan ch k).fab = d.fab := rfl
@[simp] theorem Dev.setChan_cb (d : Dev) (ch : Nat) (k : DmaChan) : (d.setChan ch k).cb = d.cb := rfl
@[simp] theorem Dev.setChan_tick (d : Dev) (ch : Nat) (k : DmaChan) : (d.setChan ch k).tick = d.tick := rfl
@[simp] theorem Dev.setChan_budget (d : Dev) (ch : Nat) (k : DmaChan) : (d.setChan ch k).budget = d.budget := rfl
@[simp] theorem Dev.setChan_leaveQ (d : Dev) (ch : Nat) (k : DmaChan) : (d.setChan ch k).leaveQ = d.leaveQ := rfl
@[simp] theorem Dev.setChan_grants (d : Dev) (ch : Nat) (k : DmaChan) : (d.setChan ch k).grants = d.grants := rfl
@[simp] theorem Dev.setChan_pw (d : Dev) (ch : Nat) (k : DmaChan) : (d.setChan ch k).pw = d.pw := rfl
@[simp] theorem Dev.setChan_tru (d : Dev) (ch : Nat) (k : DmaChan) : (d.setChan ch k).tru = d.tru := rfl
@[simp] theorem Dev.setChan_fw (d : Dev) (ch : Nat) (k : DmaChan) : (d.setChan ch k).fw = d.fw := rfl
@[simp] theorem Dev.setChan_msix (d : Dev) (ch : Nat) (k : DmaChan) : (d.setChan ch k).msix = d.msix := rfl
@[simp] theorem Dev.setChan_pba (d : Dev) (ch : Nat) (k : DmaChan) : (d.setChan ch k).pba = d.pba := rfl
@[simp] theorem Dev.setChan_msixEn (d : Dev) (ch : Nat) (k : DmaChan) : (d.setChan ch k).msixEn = d.msixEn := rfl
@[simp] theorem Dev.setChan_sent (d : Dev) (ch : Nat) (k : DmaChan) : (d.setChan ch k).sent = d.sent := rfl
@[simp] theorem Dev.setChan_rdata (d : Dev) (ch : Nat) (k : DmaChan) : (d.setChan ch k).rdata = d.rdata := rfl
@[simp] theorem Dev.setChan_rpoison (d : Dev) (ch : Nat) (k : DmaChan) : (d.setChan ch k).rpoison = d.rpoison := rfl
@[simp] theorem Dev.setChan_rur (d : Dev) (ch : Nat) (k : DmaChan) : (d.setChan ch k).rur = d.rur := rfl
@[simp] theorem Dev.setChan_rref (d : Dev) (ch : Nat) (k : DmaChan) : (d.setChan ch k).rref = d.rref := rfl

/-! ## `Dev.setSqrJob` -/

@[simp] theorem Dev.setSqrJob_cycle (d : Dev) (n : Nat) (j : SqrJob) : (d.setSqrJob n j).cycle = d.cycle := rfl
@[simp] theorem Dev.setSqrJob_free (d : Dev) (n : Nat) (j : SqrJob) : (d.setSqrJob n j).free = d.free := rfl
@[simp] theorem Dev.setSqrJob_regs (d : Dev) (n : Nat) (j : SqrJob) : (d.setSqrJob n j).regs = d.regs := rfl
@[simp] theorem Dev.setSqrJob_evBits (d : Dev) (n : Nat) (j : SqrJob) : (d.setSqrJob n j).evBits = d.evBits := rfl
@[simp] theorem Dev.setSqrJob_evAt (d : Dev) (n : Nat) (j : SqrJob) : (d.setSqrJob n j).evAt = d.evAt := rfl
@[simp] theorem Dev.setSqrJob_shadow (d : Dev) (n : Nat) (j : SqrJob) : (d.setSqrJob n j).shadow = d.shadow := rfl
@[simp] theorem Dev.setSqrJob_mem (d : Dev) (n : Nat) (j : SqrJob) : (d.setSqrJob n j).mem = d.mem := rfl
@[simp] theorem Dev.setSqrJob_poison (d : Dev) (n : Nat) (j : SqrJob) : (d.setSqrJob n j).poison = d.poison := rfl
@[simp] theorem Dev.setSqrJob_errs (d : Dev) (n : Nat) (j : SqrJob) : (d.setSqrJob n j).errs = d.errs := rfl
@[simp] theorem Dev.setSqrJob_hostMem (d : Dev) (n : Nat) (j : SqrJob) : (d.setSqrJob n j).hostMem = d.hostMem := rfl
@[simp] theorem Dev.setSqrJob_hostPoison (d : Dev) (n : Nat) (j : SqrJob) : (d.setSqrJob n j).hostPoison = d.hostPoison := rfl
@[simp] theorem Dev.setSqrJob_cache (d : Dev) (n : Nat) (j : SqrJob) : (d.setSqrJob n j).cache = d.cache := rfl
@[simp] theorem Dev.setSqrJob_trx (d : Dev) (n : Nat) (j : SqrJob) : (d.setSqrJob n j).trx = d.trx := rfl
@[simp] theorem Dev.setSqrJob_sccCnt (d : Dev) (n : Nat) (j : SqrJob) : (d.setSqrJob n j).sccCnt = d.sccCnt := rfl
@[simp] theorem Dev.setSqrJob_lineCnt (d : Dev) (n : Nat) (j : SqrJob) : (d.setSqrJob n j).lineCnt = d.lineCnt := rfl
@[simp] theorem Dev.setSqrJob_stackT (d : Dev) (n : Nat) (j : SqrJob) : (d.setSqrJob n j).stackT = d.stackT := rfl
@[simp] theorem Dev.setSqrJob_cores (d : Dev) (n : Nat) (j : SqrJob) : (d.setSqrJob n j).cores = d.cores := rfl
@[simp] theorem Dev.setSqrJob_redBuf (d : Dev) (n : Nat) (j : SqrJob) : (d.setSqrJob n j).redBuf = d.redBuf := rfl
@[simp] theorem Dev.setSqrJob_redNo (d : Dev) (n : Nat) (j : SqrJob) : (d.setSqrJob n j).redNo = d.redNo := rfl
@[simp] theorem Dev.setSqrJob_redFly (d : Dev) (n : Nat) (j : SqrJob) : (d.setSqrJob n j).redFly = d.redFly := rfl
@[simp] theorem Dev.setSqrJob_redOut (d : Dev) (n : Nat) (j : SqrJob) : (d.setSqrJob n j).redOut = d.redOut := rfl
@[simp] theorem Dev.setSqrJob_redLate (d : Dev) (n : Nat) (j : SqrJob) : (d.setSqrJob n j).redLate = d.redLate := rfl
@[simp] theorem Dev.setSqrJob_chans (d : Dev) (n : Nat) (j : SqrJob) : (d.setSqrJob n j).chans = d.chans := rfl
@[simp] theorem Dev.setSqrJob_images (d : Dev) (n : Nat) (j : SqrJob) : (d.setSqrJob n j).images = d.images := rfl
@[simp] theorem Dev.setSqrJob_imageNo (d : Dev) (n : Nat) (j : SqrJob) : (d.setSqrJob n j).imageNo = d.imageNo := rfl
@[simp] theorem Dev.setSqrJob_armT (d : Dev) (n : Nat) (j : SqrJob) : (d.setSqrJob n j).armT = d.armT := rfl
@[simp] theorem Dev.setSqrJob_readyT (d : Dev) (n : Nat) (j : SqrJob) : (d.setSqrJob n j).readyT = d.readyT := rfl
@[simp] theorem Dev.setSqrJob_armHwm (d : Dev) (n : Nat) (j : SqrJob) : (d.setSqrJob n j).armHwm = d.armHwm := rfl
@[simp] theorem Dev.setSqrJob_gateSends (d : Dev) (n : Nat) (j : SqrJob) : (d.setSqrJob n j).gateSends = d.gateSends := rfl
@[simp] theorem Dev.setSqrJob_owl (d : Dev) (n : Nat) (j : SqrJob) : (d.setSqrJob n j).owl = d.owl := rfl
@[simp] theorem Dev.setSqrJob_sqrPages (d : Dev) (n : Nat) (j : SqrJob) : (d.setSqrJob n j).sqrPages = d.sqrPages := rfl
@[simp] theorem Dev.setSqrJob_sqrCopy (d : Dev) (n : Nat) (j : SqrJob) : (d.setSqrJob n j).sqrCopy = d.sqrCopy := rfl
@[simp] theorem Dev.setSqrJob_sqrHeld (d : Dev) (n : Nat) (j : SqrJob) : (d.setSqrJob n j).sqrHeld = d.sqrHeld := rfl
@[simp] theorem Dev.setSqrJob_sqrStage (d : Dev) (n : Nat) (j : SqrJob) : (d.setSqrJob n j).sqrStage = d.sqrStage := rfl
@[simp] theorem Dev.setSqrJob_sqrUsed (d : Dev) (n : Nat) (j : SqrJob) : (d.setSqrJob n j).sqrUsed = d.sqrUsed := rfl
@[simp] theorem Dev.setSqrJob_sqrFt (d : Dev) (n : Nat) (j : SqrJob) : (d.setSqrJob n j).sqrFt = d.sqrFt := rfl
@[simp] theorem Dev.setSqrJob_sqrQ (d : Dev) (n : Nat) (j : SqrJob) : (d.setSqrJob n j).sqrQ = d.sqrQ := rfl
@[simp] theorem Dev.setSqrJob_sqrTouch (d : Dev) (n : Nat) (j : SqrJob) : (d.setSqrJob n j).sqrTouch = d.sqrTouch := rfl
@[simp] theorem Dev.setSqrJob_sqrPrev (d : Dev) (n : Nat) (j : SqrJob) : (d.setSqrJob n j).sqrPrev = d.sqrPrev := rfl
@[simp] theorem Dev.setSqrJob_sqrOld (d : Dev) (n : Nat) (j : SqrJob) : (d.setSqrJob n j).sqrOld = d.sqrOld := rfl
@[simp] theorem Dev.setSqrJob_sqrCom (d : Dev) (n : Nat) (j : SqrJob) : (d.setSqrJob n j).sqrCom = d.sqrCom := rfl
@[simp] theorem Dev.setSqrJob_hwSends (d : Dev) (n : Nat) (j : SqrJob) : (d.setSqrJob n j).hwSends = d.hwSends := rfl
@[simp] theorem Dev.setSqrJob_fences (d : Dev) (n : Nat) (j : SqrJob) : (d.setSqrJob n j).fences = d.fences := rfl
@[simp] theorem Dev.setSqrJob_epochJob (d : Dev) (n : Nat) (j : SqrJob) : (d.setSqrJob n j).epochJob = d.epochJob := rfl
@[simp] theorem Dev.setSqrJob_fab (d : Dev) (n : Nat) (j : SqrJob) : (d.setSqrJob n j).fab = d.fab := rfl
@[simp] theorem Dev.setSqrJob_cb (d : Dev) (n : Nat) (j : SqrJob) : (d.setSqrJob n j).cb = d.cb := rfl
@[simp] theorem Dev.setSqrJob_tick (d : Dev) (n : Nat) (j : SqrJob) : (d.setSqrJob n j).tick = d.tick := rfl
@[simp] theorem Dev.setSqrJob_budget (d : Dev) (n : Nat) (j : SqrJob) : (d.setSqrJob n j).budget = d.budget := rfl
@[simp] theorem Dev.setSqrJob_leaveQ (d : Dev) (n : Nat) (j : SqrJob) : (d.setSqrJob n j).leaveQ = d.leaveQ := rfl
@[simp] theorem Dev.setSqrJob_grants (d : Dev) (n : Nat) (j : SqrJob) : (d.setSqrJob n j).grants = d.grants := rfl
@[simp] theorem Dev.setSqrJob_pw (d : Dev) (n : Nat) (j : SqrJob) : (d.setSqrJob n j).pw = d.pw := rfl
@[simp] theorem Dev.setSqrJob_tru (d : Dev) (n : Nat) (j : SqrJob) : (d.setSqrJob n j).tru = d.tru := rfl
@[simp] theorem Dev.setSqrJob_fw (d : Dev) (n : Nat) (j : SqrJob) : (d.setSqrJob n j).fw = d.fw := rfl
@[simp] theorem Dev.setSqrJob_msix (d : Dev) (n : Nat) (j : SqrJob) : (d.setSqrJob n j).msix = d.msix := rfl
@[simp] theorem Dev.setSqrJob_pba (d : Dev) (n : Nat) (j : SqrJob) : (d.setSqrJob n j).pba = d.pba := rfl
@[simp] theorem Dev.setSqrJob_msixEn (d : Dev) (n : Nat) (j : SqrJob) : (d.setSqrJob n j).msixEn = d.msixEn := rfl
@[simp] theorem Dev.setSqrJob_sent (d : Dev) (n : Nat) (j : SqrJob) : (d.setSqrJob n j).sent = d.sent := rfl
@[simp] theorem Dev.setSqrJob_rdata (d : Dev) (n : Nat) (j : SqrJob) : (d.setSqrJob n j).rdata = d.rdata := rfl
@[simp] theorem Dev.setSqrJob_rpoison (d : Dev) (n : Nat) (j : SqrJob) : (d.setSqrJob n j).rpoison = d.rpoison := rfl
@[simp] theorem Dev.setSqrJob_rur (d : Dev) (n : Nat) (j : SqrJob) : (d.setSqrJob n j).rur = d.rur := rfl
@[simp] theorem Dev.setSqrJob_rref (d : Dev) (n : Nat) (j : SqrJob) : (d.setSqrJob n j).rref = d.rref := rfl

/-! ## `Dev.setSqrPage` -/

@[simp] theorem Dev.setSqrPage_cycle (d : Dev) (n : Nat) (p : SqrPage) : (d.setSqrPage n p).cycle = d.cycle := rfl
@[simp] theorem Dev.setSqrPage_free (d : Dev) (n : Nat) (p : SqrPage) : (d.setSqrPage n p).free = d.free := rfl
@[simp] theorem Dev.setSqrPage_regs (d : Dev) (n : Nat) (p : SqrPage) : (d.setSqrPage n p).regs = d.regs := rfl
@[simp] theorem Dev.setSqrPage_evBits (d : Dev) (n : Nat) (p : SqrPage) : (d.setSqrPage n p).evBits = d.evBits := rfl
@[simp] theorem Dev.setSqrPage_evAt (d : Dev) (n : Nat) (p : SqrPage) : (d.setSqrPage n p).evAt = d.evAt := rfl
@[simp] theorem Dev.setSqrPage_shadow (d : Dev) (n : Nat) (p : SqrPage) : (d.setSqrPage n p).shadow = d.shadow := rfl
@[simp] theorem Dev.setSqrPage_mem (d : Dev) (n : Nat) (p : SqrPage) : (d.setSqrPage n p).mem = d.mem := rfl
@[simp] theorem Dev.setSqrPage_poison (d : Dev) (n : Nat) (p : SqrPage) : (d.setSqrPage n p).poison = d.poison := rfl
@[simp] theorem Dev.setSqrPage_errs (d : Dev) (n : Nat) (p : SqrPage) : (d.setSqrPage n p).errs = d.errs := rfl
@[simp] theorem Dev.setSqrPage_hostMem (d : Dev) (n : Nat) (p : SqrPage) : (d.setSqrPage n p).hostMem = d.hostMem := rfl
@[simp] theorem Dev.setSqrPage_hostPoison (d : Dev) (n : Nat) (p : SqrPage) : (d.setSqrPage n p).hostPoison = d.hostPoison := rfl
@[simp] theorem Dev.setSqrPage_cache (d : Dev) (n : Nat) (p : SqrPage) : (d.setSqrPage n p).cache = d.cache := rfl
@[simp] theorem Dev.setSqrPage_trx (d : Dev) (n : Nat) (p : SqrPage) : (d.setSqrPage n p).trx = d.trx := rfl
@[simp] theorem Dev.setSqrPage_sccCnt (d : Dev) (n : Nat) (p : SqrPage) : (d.setSqrPage n p).sccCnt = d.sccCnt := rfl
@[simp] theorem Dev.setSqrPage_lineCnt (d : Dev) (n : Nat) (p : SqrPage) : (d.setSqrPage n p).lineCnt = d.lineCnt := rfl
@[simp] theorem Dev.setSqrPage_stackT (d : Dev) (n : Nat) (p : SqrPage) : (d.setSqrPage n p).stackT = d.stackT := rfl
@[simp] theorem Dev.setSqrPage_cores (d : Dev) (n : Nat) (p : SqrPage) : (d.setSqrPage n p).cores = d.cores := rfl
@[simp] theorem Dev.setSqrPage_redBuf (d : Dev) (n : Nat) (p : SqrPage) : (d.setSqrPage n p).redBuf = d.redBuf := rfl
@[simp] theorem Dev.setSqrPage_redNo (d : Dev) (n : Nat) (p : SqrPage) : (d.setSqrPage n p).redNo = d.redNo := rfl
@[simp] theorem Dev.setSqrPage_redFly (d : Dev) (n : Nat) (p : SqrPage) : (d.setSqrPage n p).redFly = d.redFly := rfl
@[simp] theorem Dev.setSqrPage_redOut (d : Dev) (n : Nat) (p : SqrPage) : (d.setSqrPage n p).redOut = d.redOut := rfl
@[simp] theorem Dev.setSqrPage_redLate (d : Dev) (n : Nat) (p : SqrPage) : (d.setSqrPage n p).redLate = d.redLate := rfl
@[simp] theorem Dev.setSqrPage_chans (d : Dev) (n : Nat) (p : SqrPage) : (d.setSqrPage n p).chans = d.chans := rfl
@[simp] theorem Dev.setSqrPage_images (d : Dev) (n : Nat) (p : SqrPage) : (d.setSqrPage n p).images = d.images := rfl
@[simp] theorem Dev.setSqrPage_imageNo (d : Dev) (n : Nat) (p : SqrPage) : (d.setSqrPage n p).imageNo = d.imageNo := rfl
@[simp] theorem Dev.setSqrPage_armT (d : Dev) (n : Nat) (p : SqrPage) : (d.setSqrPage n p).armT = d.armT := rfl
@[simp] theorem Dev.setSqrPage_readyT (d : Dev) (n : Nat) (p : SqrPage) : (d.setSqrPage n p).readyT = d.readyT := rfl
@[simp] theorem Dev.setSqrPage_armHwm (d : Dev) (n : Nat) (p : SqrPage) : (d.setSqrPage n p).armHwm = d.armHwm := rfl
@[simp] theorem Dev.setSqrPage_gateSends (d : Dev) (n : Nat) (p : SqrPage) : (d.setSqrPage n p).gateSends = d.gateSends := rfl
@[simp] theorem Dev.setSqrPage_owl (d : Dev) (n : Nat) (p : SqrPage) : (d.setSqrPage n p).owl = d.owl := rfl
@[simp] theorem Dev.setSqrPage_sqrJobs (d : Dev) (n : Nat) (p : SqrPage) : (d.setSqrPage n p).sqrJobs = d.sqrJobs := rfl
@[simp] theorem Dev.setSqrPage_sqrCopy (d : Dev) (n : Nat) (p : SqrPage) : (d.setSqrPage n p).sqrCopy = d.sqrCopy := rfl
@[simp] theorem Dev.setSqrPage_sqrHeld (d : Dev) (n : Nat) (p : SqrPage) : (d.setSqrPage n p).sqrHeld = d.sqrHeld := rfl
@[simp] theorem Dev.setSqrPage_sqrStage (d : Dev) (n : Nat) (p : SqrPage) : (d.setSqrPage n p).sqrStage = d.sqrStage := rfl
@[simp] theorem Dev.setSqrPage_sqrUsed (d : Dev) (n : Nat) (p : SqrPage) : (d.setSqrPage n p).sqrUsed = d.sqrUsed := rfl
@[simp] theorem Dev.setSqrPage_sqrFt (d : Dev) (n : Nat) (p : SqrPage) : (d.setSqrPage n p).sqrFt = d.sqrFt := rfl
@[simp] theorem Dev.setSqrPage_sqrQ (d : Dev) (n : Nat) (p : SqrPage) : (d.setSqrPage n p).sqrQ = d.sqrQ := rfl
@[simp] theorem Dev.setSqrPage_sqrTouch (d : Dev) (n : Nat) (p : SqrPage) : (d.setSqrPage n p).sqrTouch = d.sqrTouch := rfl
@[simp] theorem Dev.setSqrPage_sqrPrev (d : Dev) (n : Nat) (p : SqrPage) : (d.setSqrPage n p).sqrPrev = d.sqrPrev := rfl
@[simp] theorem Dev.setSqrPage_sqrOld (d : Dev) (n : Nat) (p : SqrPage) : (d.setSqrPage n p).sqrOld = d.sqrOld := rfl
@[simp] theorem Dev.setSqrPage_sqrCom (d : Dev) (n : Nat) (p : SqrPage) : (d.setSqrPage n p).sqrCom = d.sqrCom := rfl
@[simp] theorem Dev.setSqrPage_hwSends (d : Dev) (n : Nat) (p : SqrPage) : (d.setSqrPage n p).hwSends = d.hwSends := rfl
@[simp] theorem Dev.setSqrPage_fences (d : Dev) (n : Nat) (p : SqrPage) : (d.setSqrPage n p).fences = d.fences := rfl
@[simp] theorem Dev.setSqrPage_epochJob (d : Dev) (n : Nat) (p : SqrPage) : (d.setSqrPage n p).epochJob = d.epochJob := rfl
@[simp] theorem Dev.setSqrPage_fab (d : Dev) (n : Nat) (p : SqrPage) : (d.setSqrPage n p).fab = d.fab := rfl
@[simp] theorem Dev.setSqrPage_cb (d : Dev) (n : Nat) (p : SqrPage) : (d.setSqrPage n p).cb = d.cb := rfl
@[simp] theorem Dev.setSqrPage_tick (d : Dev) (n : Nat) (p : SqrPage) : (d.setSqrPage n p).tick = d.tick := rfl
@[simp] theorem Dev.setSqrPage_budget (d : Dev) (n : Nat) (p : SqrPage) : (d.setSqrPage n p).budget = d.budget := rfl
@[simp] theorem Dev.setSqrPage_leaveQ (d : Dev) (n : Nat) (p : SqrPage) : (d.setSqrPage n p).leaveQ = d.leaveQ := rfl
@[simp] theorem Dev.setSqrPage_grants (d : Dev) (n : Nat) (p : SqrPage) : (d.setSqrPage n p).grants = d.grants := rfl
@[simp] theorem Dev.setSqrPage_pw (d : Dev) (n : Nat) (p : SqrPage) : (d.setSqrPage n p).pw = d.pw := rfl
@[simp] theorem Dev.setSqrPage_tru (d : Dev) (n : Nat) (p : SqrPage) : (d.setSqrPage n p).tru = d.tru := rfl
@[simp] theorem Dev.setSqrPage_fw (d : Dev) (n : Nat) (p : SqrPage) : (d.setSqrPage n p).fw = d.fw := rfl
@[simp] theorem Dev.setSqrPage_msix (d : Dev) (n : Nat) (p : SqrPage) : (d.setSqrPage n p).msix = d.msix := rfl
@[simp] theorem Dev.setSqrPage_pba (d : Dev) (n : Nat) (p : SqrPage) : (d.setSqrPage n p).pba = d.pba := rfl
@[simp] theorem Dev.setSqrPage_msixEn (d : Dev) (n : Nat) (p : SqrPage) : (d.setSqrPage n p).msixEn = d.msixEn := rfl
@[simp] theorem Dev.setSqrPage_sent (d : Dev) (n : Nat) (p : SqrPage) : (d.setSqrPage n p).sent = d.sent := rfl
@[simp] theorem Dev.setSqrPage_rdata (d : Dev) (n : Nat) (p : SqrPage) : (d.setSqrPage n p).rdata = d.rdata := rfl
@[simp] theorem Dev.setSqrPage_rpoison (d : Dev) (n : Nat) (p : SqrPage) : (d.setSqrPage n p).rpoison = d.rpoison := rfl
@[simp] theorem Dev.setSqrPage_rur (d : Dev) (n : Nat) (p : SqrPage) : (d.setSqrPage n p).rur = d.rur := rfl
@[simp] theorem Dev.setSqrPage_rref (d : Dev) (n : Nat) (p : SqrPage) : (d.setSqrPage n p).rref = d.rref := rfl

/-! ## `Dev.setStrm` -/

@[simp] theorem Dev.setStrm_cycle (d : Dev) (n : Nat) (r : CmdStream) : (d.setStrm n r).cycle = d.cycle := rfl
@[simp] theorem Dev.setStrm_free (d : Dev) (n : Nat) (r : CmdStream) : (d.setStrm n r).free = d.free := rfl
@[simp] theorem Dev.setStrm_regs (d : Dev) (n : Nat) (r : CmdStream) : (d.setStrm n r).regs = d.regs := rfl
@[simp] theorem Dev.setStrm_evBits (d : Dev) (n : Nat) (r : CmdStream) : (d.setStrm n r).evBits = d.evBits := rfl
@[simp] theorem Dev.setStrm_evAt (d : Dev) (n : Nat) (r : CmdStream) : (d.setStrm n r).evAt = d.evAt := rfl
@[simp] theorem Dev.setStrm_shadow (d : Dev) (n : Nat) (r : CmdStream) : (d.setStrm n r).shadow = d.shadow := rfl
@[simp] theorem Dev.setStrm_mem (d : Dev) (n : Nat) (r : CmdStream) : (d.setStrm n r).mem = d.mem := rfl
@[simp] theorem Dev.setStrm_poison (d : Dev) (n : Nat) (r : CmdStream) : (d.setStrm n r).poison = d.poison := rfl
@[simp] theorem Dev.setStrm_errs (d : Dev) (n : Nat) (r : CmdStream) : (d.setStrm n r).errs = d.errs := rfl
@[simp] theorem Dev.setStrm_hostMem (d : Dev) (n : Nat) (r : CmdStream) : (d.setStrm n r).hostMem = d.hostMem := rfl
@[simp] theorem Dev.setStrm_hostPoison (d : Dev) (n : Nat) (r : CmdStream) : (d.setStrm n r).hostPoison = d.hostPoison := rfl
@[simp] theorem Dev.setStrm_cache (d : Dev) (n : Nat) (r : CmdStream) : (d.setStrm n r).cache = d.cache := rfl
@[simp] theorem Dev.setStrm_trx (d : Dev) (n : Nat) (r : CmdStream) : (d.setStrm n r).trx = d.trx := rfl
@[simp] theorem Dev.setStrm_sccCnt (d : Dev) (n : Nat) (r : CmdStream) : (d.setStrm n r).sccCnt = d.sccCnt := rfl
@[simp] theorem Dev.setStrm_lineCnt (d : Dev) (n : Nat) (r : CmdStream) : (d.setStrm n r).lineCnt = d.lineCnt := rfl
@[simp] theorem Dev.setStrm_stackT (d : Dev) (n : Nat) (r : CmdStream) : (d.setStrm n r).stackT = d.stackT := rfl
@[simp] theorem Dev.setStrm_cores (d : Dev) (n : Nat) (r : CmdStream) : (d.setStrm n r).cores = d.cores := rfl
@[simp] theorem Dev.setStrm_redBuf (d : Dev) (n : Nat) (r : CmdStream) : (d.setStrm n r).redBuf = d.redBuf := rfl
@[simp] theorem Dev.setStrm_redNo (d : Dev) (n : Nat) (r : CmdStream) : (d.setStrm n r).redNo = d.redNo := rfl
@[simp] theorem Dev.setStrm_redFly (d : Dev) (n : Nat) (r : CmdStream) : (d.setStrm n r).redFly = d.redFly := rfl
@[simp] theorem Dev.setStrm_redOut (d : Dev) (n : Nat) (r : CmdStream) : (d.setStrm n r).redOut = d.redOut := rfl
@[simp] theorem Dev.setStrm_redLate (d : Dev) (n : Nat) (r : CmdStream) : (d.setStrm n r).redLate = d.redLate := rfl
@[simp] theorem Dev.setStrm_chans (d : Dev) (n : Nat) (r : CmdStream) : (d.setStrm n r).chans = d.chans := rfl
@[simp] theorem Dev.setStrm_images (d : Dev) (n : Nat) (r : CmdStream) : (d.setStrm n r).images = d.images := rfl
@[simp] theorem Dev.setStrm_imageNo (d : Dev) (n : Nat) (r : CmdStream) : (d.setStrm n r).imageNo = d.imageNo := rfl
@[simp] theorem Dev.setStrm_armT (d : Dev) (n : Nat) (r : CmdStream) : (d.setStrm n r).armT = d.armT := rfl
@[simp] theorem Dev.setStrm_readyT (d : Dev) (n : Nat) (r : CmdStream) : (d.setStrm n r).readyT = d.readyT := rfl
@[simp] theorem Dev.setStrm_armHwm (d : Dev) (n : Nat) (r : CmdStream) : (d.setStrm n r).armHwm = d.armHwm := rfl
@[simp] theorem Dev.setStrm_gateSends (d : Dev) (n : Nat) (r : CmdStream) : (d.setStrm n r).gateSends = d.gateSends := rfl
@[simp] theorem Dev.setStrm_owl (d : Dev) (n : Nat) (r : CmdStream) : (d.setStrm n r).owl = d.owl := rfl
@[simp] theorem Dev.setStrm_sqrJobs (d : Dev) (n : Nat) (r : CmdStream) : (d.setStrm n r).sqrJobs = d.sqrJobs := rfl
@[simp] theorem Dev.setStrm_sqrPages (d : Dev) (n : Nat) (r : CmdStream) : (d.setStrm n r).sqrPages = d.sqrPages := rfl
@[simp] theorem Dev.setStrm_sqrCopy (d : Dev) (n : Nat) (r : CmdStream) : (d.setStrm n r).sqrCopy = d.sqrCopy := rfl
@[simp] theorem Dev.setStrm_sqrHeld (d : Dev) (n : Nat) (r : CmdStream) : (d.setStrm n r).sqrHeld = d.sqrHeld := rfl
@[simp] theorem Dev.setStrm_sqrStage (d : Dev) (n : Nat) (r : CmdStream) : (d.setStrm n r).sqrStage = d.sqrStage := rfl
@[simp] theorem Dev.setStrm_sqrUsed (d : Dev) (n : Nat) (r : CmdStream) : (d.setStrm n r).sqrUsed = d.sqrUsed := rfl
@[simp] theorem Dev.setStrm_sqrFt (d : Dev) (n : Nat) (r : CmdStream) : (d.setStrm n r).sqrFt = d.sqrFt := rfl
@[simp] theorem Dev.setStrm_sqrQ (d : Dev) (n : Nat) (r : CmdStream) : (d.setStrm n r).sqrQ = d.sqrQ := rfl
@[simp] theorem Dev.setStrm_sqrTouch (d : Dev) (n : Nat) (r : CmdStream) : (d.setStrm n r).sqrTouch = d.sqrTouch := rfl
@[simp] theorem Dev.setStrm_sqrPrev (d : Dev) (n : Nat) (r : CmdStream) : (d.setStrm n r).sqrPrev = d.sqrPrev := rfl
@[simp] theorem Dev.setStrm_sqrOld (d : Dev) (n : Nat) (r : CmdStream) : (d.setStrm n r).sqrOld = d.sqrOld := rfl
@[simp] theorem Dev.setStrm_sqrCom (d : Dev) (n : Nat) (r : CmdStream) : (d.setStrm n r).sqrCom = d.sqrCom := rfl
@[simp] theorem Dev.setStrm_hwSends (d : Dev) (n : Nat) (r : CmdStream) : (d.setStrm n r).hwSends = d.hwSends := rfl
@[simp] theorem Dev.setStrm_fences (d : Dev) (n : Nat) (r : CmdStream) : (d.setStrm n r).fences = d.fences := rfl
@[simp] theorem Dev.setStrm_epochJob (d : Dev) (n : Nat) (r : CmdStream) : (d.setStrm n r).epochJob = d.epochJob := rfl
@[simp] theorem Dev.setStrm_fab (d : Dev) (n : Nat) (r : CmdStream) : (d.setStrm n r).fab = d.fab := rfl
@[simp] theorem Dev.setStrm_tick (d : Dev) (n : Nat) (r : CmdStream) : (d.setStrm n r).tick = d.tick := rfl
@[simp] theorem Dev.setStrm_budget (d : Dev) (n : Nat) (r : CmdStream) : (d.setStrm n r).budget = d.budget := rfl
@[simp] theorem Dev.setStrm_leaveQ (d : Dev) (n : Nat) (r : CmdStream) : (d.setStrm n r).leaveQ = d.leaveQ := rfl
@[simp] theorem Dev.setStrm_grants (d : Dev) (n : Nat) (r : CmdStream) : (d.setStrm n r).grants = d.grants := rfl
@[simp] theorem Dev.setStrm_pw (d : Dev) (n : Nat) (r : CmdStream) : (d.setStrm n r).pw = d.pw := rfl
@[simp] theorem Dev.setStrm_tru (d : Dev) (n : Nat) (r : CmdStream) : (d.setStrm n r).tru = d.tru := rfl
@[simp] theorem Dev.setStrm_fw (d : Dev) (n : Nat) (r : CmdStream) : (d.setStrm n r).fw = d.fw := rfl
@[simp] theorem Dev.setStrm_msix (d : Dev) (n : Nat) (r : CmdStream) : (d.setStrm n r).msix = d.msix := rfl
@[simp] theorem Dev.setStrm_pba (d : Dev) (n : Nat) (r : CmdStream) : (d.setStrm n r).pba = d.pba := rfl
@[simp] theorem Dev.setStrm_msixEn (d : Dev) (n : Nat) (r : CmdStream) : (d.setStrm n r).msixEn = d.msixEn := rfl
@[simp] theorem Dev.setStrm_sent (d : Dev) (n : Nat) (r : CmdStream) : (d.setStrm n r).sent = d.sent := rfl
@[simp] theorem Dev.setStrm_rdata (d : Dev) (n : Nat) (r : CmdStream) : (d.setStrm n r).rdata = d.rdata := rfl
@[simp] theorem Dev.setStrm_rpoison (d : Dev) (n : Nat) (r : CmdStream) : (d.setStrm n r).rpoison = d.rpoison := rfl
@[simp] theorem Dev.setStrm_rur (d : Dev) (n : Nat) (r : CmdStream) : (d.setStrm n r).rur = d.rur := rfl
@[simp] theorem Dev.setStrm_rref (d : Dev) (n : Nat) (r : CmdStream) : (d.setStrm n r).rref = d.rref := rfl

/-! ## `Dev.owlEv` -/

@[simp] theorem Dev.owlEv_cycle (d : Dev) (k n : Nat) : (d.owlEv k n).cycle = d.cycle := by unfold Dev.owlEv; split <;> rfl
@[simp] theorem Dev.owlEv_free (d : Dev) (k n : Nat) : (d.owlEv k n).free = d.free := by unfold Dev.owlEv; split <;> rfl
@[simp] theorem Dev.owlEv_regs (d : Dev) (k n : Nat) : (d.owlEv k n).regs = d.regs := by unfold Dev.owlEv; split <;> rfl
@[simp] theorem Dev.owlEv_evBits (d : Dev) (k n : Nat) : (d.owlEv k n).evBits = d.evBits := by unfold Dev.owlEv; split <;> rfl
@[simp] theorem Dev.owlEv_evAt (d : Dev) (k n : Nat) : (d.owlEv k n).evAt = d.evAt := by unfold Dev.owlEv; split <;> rfl
@[simp] theorem Dev.owlEv_shadow (d : Dev) (k n : Nat) : (d.owlEv k n).shadow = d.shadow := by unfold Dev.owlEv; split <;> rfl
@[simp] theorem Dev.owlEv_mem (d : Dev) (k n : Nat) : (d.owlEv k n).mem = d.mem := by unfold Dev.owlEv; split <;> rfl
@[simp] theorem Dev.owlEv_poison (d : Dev) (k n : Nat) : (d.owlEv k n).poison = d.poison := by unfold Dev.owlEv; split <;> rfl
@[simp] theorem Dev.owlEv_errs (d : Dev) (k n : Nat) : (d.owlEv k n).errs = d.errs := by unfold Dev.owlEv; split <;> rfl
@[simp] theorem Dev.owlEv_hostMem (d : Dev) (k n : Nat) : (d.owlEv k n).hostMem = d.hostMem := by unfold Dev.owlEv; split <;> rfl
@[simp] theorem Dev.owlEv_hostPoison (d : Dev) (k n : Nat) : (d.owlEv k n).hostPoison = d.hostPoison := by unfold Dev.owlEv; split <;> rfl
@[simp] theorem Dev.owlEv_cache (d : Dev) (k n : Nat) : (d.owlEv k n).cache = d.cache := by unfold Dev.owlEv; split <;> rfl
@[simp] theorem Dev.owlEv_trx (d : Dev) (k n : Nat) : (d.owlEv k n).trx = d.trx := by unfold Dev.owlEv; split <;> rfl
@[simp] theorem Dev.owlEv_sccCnt (d : Dev) (k n : Nat) : (d.owlEv k n).sccCnt = d.sccCnt := by unfold Dev.owlEv; split <;> rfl
@[simp] theorem Dev.owlEv_lineCnt (d : Dev) (k n : Nat) : (d.owlEv k n).lineCnt = d.lineCnt := by unfold Dev.owlEv; split <;> rfl
@[simp] theorem Dev.owlEv_stackT (d : Dev) (k n : Nat) : (d.owlEv k n).stackT = d.stackT := by unfold Dev.owlEv; split <;> rfl
@[simp] theorem Dev.owlEv_cores (d : Dev) (k n : Nat) : (d.owlEv k n).cores = d.cores := by unfold Dev.owlEv; split <;> rfl
@[simp] theorem Dev.owlEv_redBuf (d : Dev) (k n : Nat) : (d.owlEv k n).redBuf = d.redBuf := by unfold Dev.owlEv; split <;> rfl
@[simp] theorem Dev.owlEv_redNo (d : Dev) (k n : Nat) : (d.owlEv k n).redNo = d.redNo := by unfold Dev.owlEv; split <;> rfl
@[simp] theorem Dev.owlEv_redFly (d : Dev) (k n : Nat) : (d.owlEv k n).redFly = d.redFly := by unfold Dev.owlEv; split <;> rfl
@[simp] theorem Dev.owlEv_redOut (d : Dev) (k n : Nat) : (d.owlEv k n).redOut = d.redOut := by unfold Dev.owlEv; split <;> rfl
@[simp] theorem Dev.owlEv_redLate (d : Dev) (k n : Nat) : (d.owlEv k n).redLate = d.redLate := by unfold Dev.owlEv; split <;> rfl
@[simp] theorem Dev.owlEv_chans (d : Dev) (k n : Nat) : (d.owlEv k n).chans = d.chans := by unfold Dev.owlEv; split <;> rfl
@[simp] theorem Dev.owlEv_images (d : Dev) (k n : Nat) : (d.owlEv k n).images = d.images := by unfold Dev.owlEv; split <;> rfl
@[simp] theorem Dev.owlEv_imageNo (d : Dev) (k n : Nat) : (d.owlEv k n).imageNo = d.imageNo := by unfold Dev.owlEv; split <;> rfl
@[simp] theorem Dev.owlEv_armT (d : Dev) (k n : Nat) : (d.owlEv k n).armT = d.armT := by unfold Dev.owlEv; split <;> rfl
@[simp] theorem Dev.owlEv_readyT (d : Dev) (k n : Nat) : (d.owlEv k n).readyT = d.readyT := by unfold Dev.owlEv; split <;> rfl
@[simp] theorem Dev.owlEv_armHwm (d : Dev) (k n : Nat) : (d.owlEv k n).armHwm = d.armHwm := by unfold Dev.owlEv; split <;> rfl
@[simp] theorem Dev.owlEv_gateSends (d : Dev) (k n : Nat) : (d.owlEv k n).gateSends = d.gateSends := by unfold Dev.owlEv; split <;> rfl
@[simp] theorem Dev.owlEv_sqrJobs (d : Dev) (k n : Nat) : (d.owlEv k n).sqrJobs = d.sqrJobs := by unfold Dev.owlEv; split <;> rfl
@[simp] theorem Dev.owlEv_sqrPages (d : Dev) (k n : Nat) : (d.owlEv k n).sqrPages = d.sqrPages := by unfold Dev.owlEv; split <;> rfl
@[simp] theorem Dev.owlEv_sqrCopy (d : Dev) (k n : Nat) : (d.owlEv k n).sqrCopy = d.sqrCopy := by unfold Dev.owlEv; split <;> rfl
@[simp] theorem Dev.owlEv_sqrHeld (d : Dev) (k n : Nat) : (d.owlEv k n).sqrHeld = d.sqrHeld := by unfold Dev.owlEv; split <;> rfl
@[simp] theorem Dev.owlEv_sqrStage (d : Dev) (k n : Nat) : (d.owlEv k n).sqrStage = d.sqrStage := by unfold Dev.owlEv; split <;> rfl
@[simp] theorem Dev.owlEv_sqrUsed (d : Dev) (k n : Nat) : (d.owlEv k n).sqrUsed = d.sqrUsed := by unfold Dev.owlEv; split <;> rfl
@[simp] theorem Dev.owlEv_sqrFt (d : Dev) (k n : Nat) : (d.owlEv k n).sqrFt = d.sqrFt := by unfold Dev.owlEv; split <;> rfl
@[simp] theorem Dev.owlEv_sqrQ (d : Dev) (k n : Nat) : (d.owlEv k n).sqrQ = d.sqrQ := by unfold Dev.owlEv; split <;> rfl
@[simp] theorem Dev.owlEv_sqrTouch (d : Dev) (k n : Nat) : (d.owlEv k n).sqrTouch = d.sqrTouch := by unfold Dev.owlEv; split <;> rfl
@[simp] theorem Dev.owlEv_sqrPrev (d : Dev) (k n : Nat) : (d.owlEv k n).sqrPrev = d.sqrPrev := by unfold Dev.owlEv; split <;> rfl
@[simp] theorem Dev.owlEv_sqrOld (d : Dev) (k n : Nat) : (d.owlEv k n).sqrOld = d.sqrOld := by unfold Dev.owlEv; split <;> rfl
@[simp] theorem Dev.owlEv_sqrCom (d : Dev) (k n : Nat) : (d.owlEv k n).sqrCom = d.sqrCom := by unfold Dev.owlEv; split <;> rfl
@[simp] theorem Dev.owlEv_hwSends (d : Dev) (k n : Nat) : (d.owlEv k n).hwSends = d.hwSends := by unfold Dev.owlEv; split <;> rfl
@[simp] theorem Dev.owlEv_fences (d : Dev) (k n : Nat) : (d.owlEv k n).fences = d.fences := by unfold Dev.owlEv; split <;> rfl
@[simp] theorem Dev.owlEv_epochJob (d : Dev) (k n : Nat) : (d.owlEv k n).epochJob = d.epochJob := by unfold Dev.owlEv; split <;> rfl
@[simp] theorem Dev.owlEv_fab (d : Dev) (k n : Nat) : (d.owlEv k n).fab = d.fab := by unfold Dev.owlEv; split <;> rfl
@[simp] theorem Dev.owlEv_cb (d : Dev) (k n : Nat) : (d.owlEv k n).cb = d.cb := by unfold Dev.owlEv; split <;> rfl
@[simp] theorem Dev.owlEv_tick (d : Dev) (k n : Nat) : (d.owlEv k n).tick = d.tick := by unfold Dev.owlEv; split <;> rfl
@[simp] theorem Dev.owlEv_budget (d : Dev) (k n : Nat) : (d.owlEv k n).budget = d.budget := by unfold Dev.owlEv; split <;> rfl
@[simp] theorem Dev.owlEv_leaveQ (d : Dev) (k n : Nat) : (d.owlEv k n).leaveQ = d.leaveQ := by unfold Dev.owlEv; split <;> rfl
@[simp] theorem Dev.owlEv_grants (d : Dev) (k n : Nat) : (d.owlEv k n).grants = d.grants := by unfold Dev.owlEv; split <;> rfl
@[simp] theorem Dev.owlEv_pw (d : Dev) (k n : Nat) : (d.owlEv k n).pw = d.pw := by unfold Dev.owlEv; split <;> rfl
@[simp] theorem Dev.owlEv_tru (d : Dev) (k n : Nat) : (d.owlEv k n).tru = d.tru := by unfold Dev.owlEv; split <;> rfl
@[simp] theorem Dev.owlEv_fw (d : Dev) (k n : Nat) : (d.owlEv k n).fw = d.fw := by unfold Dev.owlEv; split <;> rfl
@[simp] theorem Dev.owlEv_msix (d : Dev) (k n : Nat) : (d.owlEv k n).msix = d.msix := by unfold Dev.owlEv; split <;> rfl
@[simp] theorem Dev.owlEv_pba (d : Dev) (k n : Nat) : (d.owlEv k n).pba = d.pba := by unfold Dev.owlEv; split <;> rfl
@[simp] theorem Dev.owlEv_msixEn (d : Dev) (k n : Nat) : (d.owlEv k n).msixEn = d.msixEn := by unfold Dev.owlEv; split <;> rfl
@[simp] theorem Dev.owlEv_sent (d : Dev) (k n : Nat) : (d.owlEv k n).sent = d.sent := by unfold Dev.owlEv; split <;> rfl
@[simp] theorem Dev.owlEv_rdata (d : Dev) (k n : Nat) : (d.owlEv k n).rdata = d.rdata := by unfold Dev.owlEv; split <;> rfl
@[simp] theorem Dev.owlEv_rpoison (d : Dev) (k n : Nat) : (d.owlEv k n).rpoison = d.rpoison := by unfold Dev.owlEv; split <;> rfl
@[simp] theorem Dev.owlEv_rur (d : Dev) (k n : Nat) : (d.owlEv k n).rur = d.rur := by unfold Dev.owlEv; split <;> rfl
@[simp] theorem Dev.owlEv_rref (d : Dev) (k n : Nat) : (d.owlEv k n).rref = d.rref := by unfold Dev.owlEv; split <;> rfl

/-! ## `Dev.sendMsix` -/

@[simp] theorem Dev.sendMsix_cycle (d : Dev) (v : Nat) : (d.sendMsix v).cycle = d.cycle := by unfold Dev.sendMsix; repeat (first | rfl | split)
@[simp] theorem Dev.sendMsix_free (d : Dev) (v : Nat) : (d.sendMsix v).free = d.free := by unfold Dev.sendMsix; repeat (first | rfl | split)
@[simp] theorem Dev.sendMsix_regs (d : Dev) (v : Nat) : (d.sendMsix v).regs = d.regs := by unfold Dev.sendMsix; repeat (first | rfl | split)
@[simp] theorem Dev.sendMsix_evBits (d : Dev) (v : Nat) : (d.sendMsix v).evBits = d.evBits := by unfold Dev.sendMsix; repeat (first | rfl | split)
@[simp] theorem Dev.sendMsix_evAt (d : Dev) (v : Nat) : (d.sendMsix v).evAt = d.evAt := by unfold Dev.sendMsix; repeat (first | rfl | split)
@[simp] theorem Dev.sendMsix_shadow (d : Dev) (v : Nat) : (d.sendMsix v).shadow = d.shadow := by unfold Dev.sendMsix; repeat (first | rfl | split)
@[simp] theorem Dev.sendMsix_mem (d : Dev) (v : Nat) : (d.sendMsix v).mem = d.mem := by unfold Dev.sendMsix; repeat (first | rfl | split)
@[simp] theorem Dev.sendMsix_poison (d : Dev) (v : Nat) : (d.sendMsix v).poison = d.poison := by unfold Dev.sendMsix; repeat (first | rfl | split)
@[simp] theorem Dev.sendMsix_errs (d : Dev) (v : Nat) : (d.sendMsix v).errs = d.errs := by unfold Dev.sendMsix; repeat (first | rfl | split)
@[simp] theorem Dev.sendMsix_hostMem (d : Dev) (v : Nat) : (d.sendMsix v).hostMem = d.hostMem := by unfold Dev.sendMsix; repeat (first | rfl | split)
@[simp] theorem Dev.sendMsix_hostPoison (d : Dev) (v : Nat) : (d.sendMsix v).hostPoison = d.hostPoison := by unfold Dev.sendMsix; repeat (first | rfl | split)
@[simp] theorem Dev.sendMsix_cache (d : Dev) (v : Nat) : (d.sendMsix v).cache = d.cache := by unfold Dev.sendMsix; repeat (first | rfl | split)
@[simp] theorem Dev.sendMsix_trx (d : Dev) (v : Nat) : (d.sendMsix v).trx = d.trx := by unfold Dev.sendMsix; repeat (first | rfl | split)
@[simp] theorem Dev.sendMsix_sccCnt (d : Dev) (v : Nat) : (d.sendMsix v).sccCnt = d.sccCnt := by unfold Dev.sendMsix; repeat (first | rfl | split)
@[simp] theorem Dev.sendMsix_lineCnt (d : Dev) (v : Nat) : (d.sendMsix v).lineCnt = d.lineCnt := by unfold Dev.sendMsix; repeat (first | rfl | split)
@[simp] theorem Dev.sendMsix_stackT (d : Dev) (v : Nat) : (d.sendMsix v).stackT = d.stackT := by unfold Dev.sendMsix; repeat (first | rfl | split)
@[simp] theorem Dev.sendMsix_cores (d : Dev) (v : Nat) : (d.sendMsix v).cores = d.cores := by unfold Dev.sendMsix; repeat (first | rfl | split)
@[simp] theorem Dev.sendMsix_redBuf (d : Dev) (v : Nat) : (d.sendMsix v).redBuf = d.redBuf := by unfold Dev.sendMsix; repeat (first | rfl | split)
@[simp] theorem Dev.sendMsix_redNo (d : Dev) (v : Nat) : (d.sendMsix v).redNo = d.redNo := by unfold Dev.sendMsix; repeat (first | rfl | split)
@[simp] theorem Dev.sendMsix_redFly (d : Dev) (v : Nat) : (d.sendMsix v).redFly = d.redFly := by unfold Dev.sendMsix; repeat (first | rfl | split)
@[simp] theorem Dev.sendMsix_redOut (d : Dev) (v : Nat) : (d.sendMsix v).redOut = d.redOut := by unfold Dev.sendMsix; repeat (first | rfl | split)
@[simp] theorem Dev.sendMsix_redLate (d : Dev) (v : Nat) : (d.sendMsix v).redLate = d.redLate := by unfold Dev.sendMsix; repeat (first | rfl | split)
@[simp] theorem Dev.sendMsix_chans (d : Dev) (v : Nat) : (d.sendMsix v).chans = d.chans := by unfold Dev.sendMsix; repeat (first | rfl | split)
@[simp] theorem Dev.sendMsix_images (d : Dev) (v : Nat) : (d.sendMsix v).images = d.images := by unfold Dev.sendMsix; repeat (first | rfl | split)
@[simp] theorem Dev.sendMsix_imageNo (d : Dev) (v : Nat) : (d.sendMsix v).imageNo = d.imageNo := by unfold Dev.sendMsix; repeat (first | rfl | split)
@[simp] theorem Dev.sendMsix_armT (d : Dev) (v : Nat) : (d.sendMsix v).armT = d.armT := by unfold Dev.sendMsix; repeat (first | rfl | split)
@[simp] theorem Dev.sendMsix_readyT (d : Dev) (v : Nat) : (d.sendMsix v).readyT = d.readyT := by unfold Dev.sendMsix; repeat (first | rfl | split)
@[simp] theorem Dev.sendMsix_armHwm (d : Dev) (v : Nat) : (d.sendMsix v).armHwm = d.armHwm := by unfold Dev.sendMsix; repeat (first | rfl | split)
@[simp] theorem Dev.sendMsix_gateSends (d : Dev) (v : Nat) : (d.sendMsix v).gateSends = d.gateSends := by unfold Dev.sendMsix; repeat (first | rfl | split)
@[simp] theorem Dev.sendMsix_owl (d : Dev) (v : Nat) : (d.sendMsix v).owl = d.owl := by unfold Dev.sendMsix; repeat (first | rfl | split)
@[simp] theorem Dev.sendMsix_sqrJobs (d : Dev) (v : Nat) : (d.sendMsix v).sqrJobs = d.sqrJobs := by unfold Dev.sendMsix; repeat (first | rfl | split)
@[simp] theorem Dev.sendMsix_sqrPages (d : Dev) (v : Nat) : (d.sendMsix v).sqrPages = d.sqrPages := by unfold Dev.sendMsix; repeat (first | rfl | split)
@[simp] theorem Dev.sendMsix_sqrCopy (d : Dev) (v : Nat) : (d.sendMsix v).sqrCopy = d.sqrCopy := by unfold Dev.sendMsix; repeat (first | rfl | split)
@[simp] theorem Dev.sendMsix_sqrHeld (d : Dev) (v : Nat) : (d.sendMsix v).sqrHeld = d.sqrHeld := by unfold Dev.sendMsix; repeat (first | rfl | split)
@[simp] theorem Dev.sendMsix_sqrStage (d : Dev) (v : Nat) : (d.sendMsix v).sqrStage = d.sqrStage := by unfold Dev.sendMsix; repeat (first | rfl | split)
@[simp] theorem Dev.sendMsix_sqrUsed (d : Dev) (v : Nat) : (d.sendMsix v).sqrUsed = d.sqrUsed := by unfold Dev.sendMsix; repeat (first | rfl | split)
@[simp] theorem Dev.sendMsix_sqrFt (d : Dev) (v : Nat) : (d.sendMsix v).sqrFt = d.sqrFt := by unfold Dev.sendMsix; repeat (first | rfl | split)
@[simp] theorem Dev.sendMsix_sqrQ (d : Dev) (v : Nat) : (d.sendMsix v).sqrQ = d.sqrQ := by unfold Dev.sendMsix; repeat (first | rfl | split)
@[simp] theorem Dev.sendMsix_sqrTouch (d : Dev) (v : Nat) : (d.sendMsix v).sqrTouch = d.sqrTouch := by unfold Dev.sendMsix; repeat (first | rfl | split)
@[simp] theorem Dev.sendMsix_sqrPrev (d : Dev) (v : Nat) : (d.sendMsix v).sqrPrev = d.sqrPrev := by unfold Dev.sendMsix; repeat (first | rfl | split)
@[simp] theorem Dev.sendMsix_sqrOld (d : Dev) (v : Nat) : (d.sendMsix v).sqrOld = d.sqrOld := by unfold Dev.sendMsix; repeat (first | rfl | split)
@[simp] theorem Dev.sendMsix_sqrCom (d : Dev) (v : Nat) : (d.sendMsix v).sqrCom = d.sqrCom := by unfold Dev.sendMsix; repeat (first | rfl | split)
@[simp] theorem Dev.sendMsix_hwSends (d : Dev) (v : Nat) : (d.sendMsix v).hwSends = d.hwSends := by unfold Dev.sendMsix; repeat (first | rfl | split)
@[simp] theorem Dev.sendMsix_fences (d : Dev) (v : Nat) : (d.sendMsix v).fences = d.fences := by unfold Dev.sendMsix; repeat (first | rfl | split)
@[simp] theorem Dev.sendMsix_epochJob (d : Dev) (v : Nat) : (d.sendMsix v).epochJob = d.epochJob := by unfold Dev.sendMsix; repeat (first | rfl | split)
@[simp] theorem Dev.sendMsix_fab (d : Dev) (v : Nat) : (d.sendMsix v).fab = d.fab := by unfold Dev.sendMsix; repeat (first | rfl | split)
@[simp] theorem Dev.sendMsix_cb (d : Dev) (v : Nat) : (d.sendMsix v).cb = d.cb := by unfold Dev.sendMsix; repeat (first | rfl | split)
@[simp] theorem Dev.sendMsix_tick (d : Dev) (v : Nat) : (d.sendMsix v).tick = d.tick := by unfold Dev.sendMsix; repeat (first | rfl | split)
@[simp] theorem Dev.sendMsix_budget (d : Dev) (v : Nat) : (d.sendMsix v).budget = d.budget := by unfold Dev.sendMsix; repeat (first | rfl | split)
@[simp] theorem Dev.sendMsix_leaveQ (d : Dev) (v : Nat) : (d.sendMsix v).leaveQ = d.leaveQ := by unfold Dev.sendMsix; repeat (first | rfl | split)
@[simp] theorem Dev.sendMsix_grants (d : Dev) (v : Nat) : (d.sendMsix v).grants = d.grants := by unfold Dev.sendMsix; repeat (first | rfl | split)
@[simp] theorem Dev.sendMsix_pw (d : Dev) (v : Nat) : (d.sendMsix v).pw = d.pw := by unfold Dev.sendMsix; repeat (first | rfl | split)
@[simp] theorem Dev.sendMsix_tru (d : Dev) (v : Nat) : (d.sendMsix v).tru = d.tru := by unfold Dev.sendMsix; repeat (first | rfl | split)
@[simp] theorem Dev.sendMsix_fw (d : Dev) (v : Nat) : (d.sendMsix v).fw = d.fw := by unfold Dev.sendMsix; repeat (first | rfl | split)
@[simp] theorem Dev.sendMsix_msix (d : Dev) (v : Nat) : (d.sendMsix v).msix = d.msix := by unfold Dev.sendMsix; repeat (first | rfl | split)
@[simp] theorem Dev.sendMsix_msixEn (d : Dev) (v : Nat) : (d.sendMsix v).msixEn = d.msixEn := by unfold Dev.sendMsix; repeat (first | rfl | split)
@[simp] theorem Dev.sendMsix_rdata (d : Dev) (v : Nat) : (d.sendMsix v).rdata = d.rdata := by unfold Dev.sendMsix; repeat (first | rfl | split)
@[simp] theorem Dev.sendMsix_rpoison (d : Dev) (v : Nat) : (d.sendMsix v).rpoison = d.rpoison := by unfold Dev.sendMsix; repeat (first | rfl | split)
@[simp] theorem Dev.sendMsix_rur (d : Dev) (v : Nat) : (d.sendMsix v).rur = d.rur := by unfold Dev.sendMsix; repeat (first | rfl | split)
@[simp] theorem Dev.sendMsix_rref (d : Dev) (v : Nat) : (d.sendMsix v).rref = d.rref := by unfold Dev.sendMsix; repeat (first | rfl | split)

/-! ## `Dev.source` -/

@[simp] theorem Dev.source_cycle (d : Dev) (p b v : Nat) : (d.source p b v).cycle = d.cycle := by unfold Dev.source; split <;> simp
@[simp] theorem Dev.source_free (d : Dev) (p b v : Nat) : (d.source p b v).free = d.free := by unfold Dev.source; split <;> simp
@[simp] theorem Dev.source_regs (d : Dev) (p b v : Nat) : (d.source p b v).regs = d.regs := by unfold Dev.source; split <;> simp
@[simp] theorem Dev.source_evBits (d : Dev) (p b v : Nat) : (d.source p b v).evBits = d.evBits := by unfold Dev.source; split <;> simp
@[simp] theorem Dev.source_evAt (d : Dev) (p b v : Nat) : (d.source p b v).evAt = d.evAt := by unfold Dev.source; split <;> simp
@[simp] theorem Dev.source_shadow (d : Dev) (p b v : Nat) : (d.source p b v).shadow = d.shadow := by unfold Dev.source; split <;> simp
@[simp] theorem Dev.source_mem (d : Dev) (p b v : Nat) : (d.source p b v).mem = d.mem := by unfold Dev.source; split <;> simp
@[simp] theorem Dev.source_poison (d : Dev) (p b v : Nat) : (d.source p b v).poison = d.poison := by unfold Dev.source; split <;> simp
@[simp] theorem Dev.source_errs (d : Dev) (p b v : Nat) : (d.source p b v).errs = d.errs := by unfold Dev.source; split <;> simp
@[simp] theorem Dev.source_hostMem (d : Dev) (p b v : Nat) : (d.source p b v).hostMem = d.hostMem := by unfold Dev.source; split <;> simp
@[simp] theorem Dev.source_hostPoison (d : Dev) (p b v : Nat) : (d.source p b v).hostPoison = d.hostPoison := by unfold Dev.source; split <;> simp
@[simp] theorem Dev.source_cache (d : Dev) (p b v : Nat) : (d.source p b v).cache = d.cache := by unfold Dev.source; split <;> simp
@[simp] theorem Dev.source_trx (d : Dev) (p b v : Nat) : (d.source p b v).trx = d.trx := by unfold Dev.source; split <;> simp
@[simp] theorem Dev.source_sccCnt (d : Dev) (p b v : Nat) : (d.source p b v).sccCnt = d.sccCnt := by unfold Dev.source; split <;> simp
@[simp] theorem Dev.source_lineCnt (d : Dev) (p b v : Nat) : (d.source p b v).lineCnt = d.lineCnt := by unfold Dev.source; split <;> simp
@[simp] theorem Dev.source_stackT (d : Dev) (p b v : Nat) : (d.source p b v).stackT = d.stackT := by unfold Dev.source; split <;> simp
@[simp] theorem Dev.source_cores (d : Dev) (p b v : Nat) : (d.source p b v).cores = d.cores := by unfold Dev.source; split <;> simp
@[simp] theorem Dev.source_redBuf (d : Dev) (p b v : Nat) : (d.source p b v).redBuf = d.redBuf := by unfold Dev.source; split <;> simp
@[simp] theorem Dev.source_redNo (d : Dev) (p b v : Nat) : (d.source p b v).redNo = d.redNo := by unfold Dev.source; split <;> simp
@[simp] theorem Dev.source_redFly (d : Dev) (p b v : Nat) : (d.source p b v).redFly = d.redFly := by unfold Dev.source; split <;> simp
@[simp] theorem Dev.source_redOut (d : Dev) (p b v : Nat) : (d.source p b v).redOut = d.redOut := by unfold Dev.source; split <;> simp
@[simp] theorem Dev.source_redLate (d : Dev) (p b v : Nat) : (d.source p b v).redLate = d.redLate := by unfold Dev.source; split <;> simp
@[simp] theorem Dev.source_chans (d : Dev) (p b v : Nat) : (d.source p b v).chans = d.chans := by unfold Dev.source; split <;> simp
@[simp] theorem Dev.source_images (d : Dev) (p b v : Nat) : (d.source p b v).images = d.images := by unfold Dev.source; split <;> simp
@[simp] theorem Dev.source_imageNo (d : Dev) (p b v : Nat) : (d.source p b v).imageNo = d.imageNo := by unfold Dev.source; split <;> simp
@[simp] theorem Dev.source_armT (d : Dev) (p b v : Nat) : (d.source p b v).armT = d.armT := by unfold Dev.source; split <;> simp
@[simp] theorem Dev.source_readyT (d : Dev) (p b v : Nat) : (d.source p b v).readyT = d.readyT := by unfold Dev.source; split <;> simp
@[simp] theorem Dev.source_armHwm (d : Dev) (p b v : Nat) : (d.source p b v).armHwm = d.armHwm := by unfold Dev.source; split <;> simp
@[simp] theorem Dev.source_gateSends (d : Dev) (p b v : Nat) : (d.source p b v).gateSends = d.gateSends := by unfold Dev.source; split <;> simp
@[simp] theorem Dev.source_owl (d : Dev) (p b v : Nat) : (d.source p b v).owl = d.owl := by unfold Dev.source; split <;> simp
@[simp] theorem Dev.source_sqrJobs (d : Dev) (p b v : Nat) : (d.source p b v).sqrJobs = d.sqrJobs := by unfold Dev.source; split <;> simp
@[simp] theorem Dev.source_sqrPages (d : Dev) (p b v : Nat) : (d.source p b v).sqrPages = d.sqrPages := by unfold Dev.source; split <;> simp
@[simp] theorem Dev.source_sqrCopy (d : Dev) (p b v : Nat) : (d.source p b v).sqrCopy = d.sqrCopy := by unfold Dev.source; split <;> simp
@[simp] theorem Dev.source_sqrHeld (d : Dev) (p b v : Nat) : (d.source p b v).sqrHeld = d.sqrHeld := by unfold Dev.source; split <;> simp
@[simp] theorem Dev.source_sqrStage (d : Dev) (p b v : Nat) : (d.source p b v).sqrStage = d.sqrStage := by unfold Dev.source; split <;> simp
@[simp] theorem Dev.source_sqrUsed (d : Dev) (p b v : Nat) : (d.source p b v).sqrUsed = d.sqrUsed := by unfold Dev.source; split <;> simp
@[simp] theorem Dev.source_sqrFt (d : Dev) (p b v : Nat) : (d.source p b v).sqrFt = d.sqrFt := by unfold Dev.source; split <;> simp
@[simp] theorem Dev.source_sqrQ (d : Dev) (p b v : Nat) : (d.source p b v).sqrQ = d.sqrQ := by unfold Dev.source; split <;> simp
@[simp] theorem Dev.source_sqrTouch (d : Dev) (p b v : Nat) : (d.source p b v).sqrTouch = d.sqrTouch := by unfold Dev.source; split <;> simp
@[simp] theorem Dev.source_sqrPrev (d : Dev) (p b v : Nat) : (d.source p b v).sqrPrev = d.sqrPrev := by unfold Dev.source; split <;> simp
@[simp] theorem Dev.source_sqrOld (d : Dev) (p b v : Nat) : (d.source p b v).sqrOld = d.sqrOld := by unfold Dev.source; split <;> simp
@[simp] theorem Dev.source_sqrCom (d : Dev) (p b v : Nat) : (d.source p b v).sqrCom = d.sqrCom := by unfold Dev.source; split <;> simp
@[simp] theorem Dev.source_hwSends (d : Dev) (p b v : Nat) : (d.source p b v).hwSends = d.hwSends := by unfold Dev.source; split <;> simp
@[simp] theorem Dev.source_fences (d : Dev) (p b v : Nat) : (d.source p b v).fences = d.fences := by unfold Dev.source; split <;> simp
@[simp] theorem Dev.source_epochJob (d : Dev) (p b v : Nat) : (d.source p b v).epochJob = d.epochJob := by unfold Dev.source; split <;> simp
@[simp] theorem Dev.source_fab (d : Dev) (p b v : Nat) : (d.source p b v).fab = d.fab := by unfold Dev.source; split <;> simp
@[simp] theorem Dev.source_cb (d : Dev) (p b v : Nat) : (d.source p b v).cb = d.cb := by unfold Dev.source; split <;> simp
@[simp] theorem Dev.source_tick (d : Dev) (p b v : Nat) : (d.source p b v).tick = d.tick := by unfold Dev.source; split <;> simp
@[simp] theorem Dev.source_budget (d : Dev) (p b v : Nat) : (d.source p b v).budget = d.budget := by unfold Dev.source; split <;> simp
@[simp] theorem Dev.source_leaveQ (d : Dev) (p b v : Nat) : (d.source p b v).leaveQ = d.leaveQ := by unfold Dev.source; split <;> simp
@[simp] theorem Dev.source_grants (d : Dev) (p b v : Nat) : (d.source p b v).grants = d.grants := by unfold Dev.source; split <;> simp
@[simp] theorem Dev.source_pw (d : Dev) (p b v : Nat) : (d.source p b v).pw = d.pw := by unfold Dev.source; split <;> simp
@[simp] theorem Dev.source_tru (d : Dev) (p b v : Nat) : (d.source p b v).tru = d.tru := by unfold Dev.source; split <;> simp
@[simp] theorem Dev.source_fw (d : Dev) (p b v : Nat) : (d.source p b v).fw = d.fw := by unfold Dev.source; split <;> simp
@[simp] theorem Dev.source_msix (d : Dev) (p b v : Nat) : (d.source p b v).msix = d.msix := by unfold Dev.source; split <;> simp
@[simp] theorem Dev.source_msixEn (d : Dev) (p b v : Nat) : (d.source p b v).msixEn = d.msixEn := by unfold Dev.source; split <;> simp
@[simp] theorem Dev.source_rdata (d : Dev) (p b v : Nat) : (d.source p b v).rdata = d.rdata := by unfold Dev.source; split <;> simp
@[simp] theorem Dev.source_rpoison (d : Dev) (p b v : Nat) : (d.source p b v).rpoison = d.rpoison := by unfold Dev.source; split <;> simp
@[simp] theorem Dev.source_rur (d : Dev) (p b v : Nat) : (d.source p b v).rur = d.rur := by unfold Dev.source; split <;> simp
@[simp] theorem Dev.source_rref (d : Dev) (p b v : Nat) : (d.source p b v).rref = d.rref := by unfold Dev.source; split <;> simp

/-! ## `Dev.event` -/

@[simp] theorem Dev.event_cycle (d : Dev) (a n : Nat) : (d.event a n).cycle = d.cycle := rfl
@[simp] theorem Dev.event_free (d : Dev) (a n : Nat) : (d.event a n).free = d.free := rfl
@[simp] theorem Dev.event_regs (d : Dev) (a n : Nat) : (d.event a n).regs = d.regs := rfl
@[simp] theorem Dev.event_shadow (d : Dev) (a n : Nat) : (d.event a n).shadow = d.shadow := rfl
@[simp] theorem Dev.event_mem (d : Dev) (a n : Nat) : (d.event a n).mem = d.mem := rfl
@[simp] theorem Dev.event_poison (d : Dev) (a n : Nat) : (d.event a n).poison = d.poison := rfl
@[simp] theorem Dev.event_errs (d : Dev) (a n : Nat) : (d.event a n).errs = d.errs := rfl
@[simp] theorem Dev.event_hostMem (d : Dev) (a n : Nat) : (d.event a n).hostMem = d.hostMem := rfl
@[simp] theorem Dev.event_hostPoison (d : Dev) (a n : Nat) : (d.event a n).hostPoison = d.hostPoison := rfl
@[simp] theorem Dev.event_cache (d : Dev) (a n : Nat) : (d.event a n).cache = d.cache := rfl
@[simp] theorem Dev.event_trx (d : Dev) (a n : Nat) : (d.event a n).trx = d.trx := rfl
@[simp] theorem Dev.event_sccCnt (d : Dev) (a n : Nat) : (d.event a n).sccCnt = d.sccCnt := rfl
@[simp] theorem Dev.event_lineCnt (d : Dev) (a n : Nat) : (d.event a n).lineCnt = d.lineCnt := rfl
@[simp] theorem Dev.event_stackT (d : Dev) (a n : Nat) : (d.event a n).stackT = d.stackT := rfl
@[simp] theorem Dev.event_cores (d : Dev) (a n : Nat) : (d.event a n).cores = d.cores := rfl
@[simp] theorem Dev.event_redBuf (d : Dev) (a n : Nat) : (d.event a n).redBuf = d.redBuf := rfl
@[simp] theorem Dev.event_redNo (d : Dev) (a n : Nat) : (d.event a n).redNo = d.redNo := rfl
@[simp] theorem Dev.event_redFly (d : Dev) (a n : Nat) : (d.event a n).redFly = d.redFly := rfl
@[simp] theorem Dev.event_redOut (d : Dev) (a n : Nat) : (d.event a n).redOut = d.redOut := rfl
@[simp] theorem Dev.event_redLate (d : Dev) (a n : Nat) : (d.event a n).redLate = d.redLate := rfl
@[simp] theorem Dev.event_chans (d : Dev) (a n : Nat) : (d.event a n).chans = d.chans := rfl
@[simp] theorem Dev.event_images (d : Dev) (a n : Nat) : (d.event a n).images = d.images := rfl
@[simp] theorem Dev.event_imageNo (d : Dev) (a n : Nat) : (d.event a n).imageNo = d.imageNo := rfl
@[simp] theorem Dev.event_armT (d : Dev) (a n : Nat) : (d.event a n).armT = d.armT := rfl
@[simp] theorem Dev.event_readyT (d : Dev) (a n : Nat) : (d.event a n).readyT = d.readyT := rfl
@[simp] theorem Dev.event_armHwm (d : Dev) (a n : Nat) : (d.event a n).armHwm = d.armHwm := rfl
@[simp] theorem Dev.event_gateSends (d : Dev) (a n : Nat) : (d.event a n).gateSends = d.gateSends := rfl
@[simp] theorem Dev.event_owl (d : Dev) (a n : Nat) : (d.event a n).owl = d.owl := rfl
@[simp] theorem Dev.event_sqrJobs (d : Dev) (a n : Nat) : (d.event a n).sqrJobs = d.sqrJobs := rfl
@[simp] theorem Dev.event_sqrPages (d : Dev) (a n : Nat) : (d.event a n).sqrPages = d.sqrPages := rfl
@[simp] theorem Dev.event_sqrCopy (d : Dev) (a n : Nat) : (d.event a n).sqrCopy = d.sqrCopy := rfl
@[simp] theorem Dev.event_sqrHeld (d : Dev) (a n : Nat) : (d.event a n).sqrHeld = d.sqrHeld := rfl
@[simp] theorem Dev.event_sqrStage (d : Dev) (a n : Nat) : (d.event a n).sqrStage = d.sqrStage := rfl
@[simp] theorem Dev.event_sqrUsed (d : Dev) (a n : Nat) : (d.event a n).sqrUsed = d.sqrUsed := rfl
@[simp] theorem Dev.event_sqrFt (d : Dev) (a n : Nat) : (d.event a n).sqrFt = d.sqrFt := rfl
@[simp] theorem Dev.event_sqrQ (d : Dev) (a n : Nat) : (d.event a n).sqrQ = d.sqrQ := rfl
@[simp] theorem Dev.event_sqrTouch (d : Dev) (a n : Nat) : (d.event a n).sqrTouch = d.sqrTouch := rfl
@[simp] theorem Dev.event_sqrPrev (d : Dev) (a n : Nat) : (d.event a n).sqrPrev = d.sqrPrev := rfl
@[simp] theorem Dev.event_sqrOld (d : Dev) (a n : Nat) : (d.event a n).sqrOld = d.sqrOld := rfl
@[simp] theorem Dev.event_sqrCom (d : Dev) (a n : Nat) : (d.event a n).sqrCom = d.sqrCom := rfl
@[simp] theorem Dev.event_hwSends (d : Dev) (a n : Nat) : (d.event a n).hwSends = d.hwSends := rfl
@[simp] theorem Dev.event_fences (d : Dev) (a n : Nat) : (d.event a n).fences = d.fences := rfl
@[simp] theorem Dev.event_epochJob (d : Dev) (a n : Nat) : (d.event a n).epochJob = d.epochJob := rfl
@[simp] theorem Dev.event_fab (d : Dev) (a n : Nat) : (d.event a n).fab = d.fab := rfl
@[simp] theorem Dev.event_cb (d : Dev) (a n : Nat) : (d.event a n).cb = d.cb := rfl
@[simp] theorem Dev.event_tick (d : Dev) (a n : Nat) : (d.event a n).tick = d.tick := rfl
@[simp] theorem Dev.event_budget (d : Dev) (a n : Nat) : (d.event a n).budget = d.budget := rfl
@[simp] theorem Dev.event_leaveQ (d : Dev) (a n : Nat) : (d.event a n).leaveQ = d.leaveQ := rfl
@[simp] theorem Dev.event_grants (d : Dev) (a n : Nat) : (d.event a n).grants = d.grants := rfl
@[simp] theorem Dev.event_pw (d : Dev) (a n : Nat) : (d.event a n).pw = d.pw := rfl
@[simp] theorem Dev.event_tru (d : Dev) (a n : Nat) : (d.event a n).tru = d.tru := rfl
@[simp] theorem Dev.event_fw (d : Dev) (a n : Nat) : (d.event a n).fw = d.fw := rfl
@[simp] theorem Dev.event_msix (d : Dev) (a n : Nat) : (d.event a n).msix = d.msix := rfl
@[simp] theorem Dev.event_pba (d : Dev) (a n : Nat) : (d.event a n).pba = d.pba := rfl
@[simp] theorem Dev.event_msixEn (d : Dev) (a n : Nat) : (d.event a n).msixEn = d.msixEn := rfl
@[simp] theorem Dev.event_sent (d : Dev) (a n : Nat) : (d.event a n).sent = d.sent := rfl
@[simp] theorem Dev.event_rdata (d : Dev) (a n : Nat) : (d.event a n).rdata = d.rdata := rfl
@[simp] theorem Dev.event_rpoison (d : Dev) (a n : Nat) : (d.event a n).rpoison = d.rpoison := rfl
@[simp] theorem Dev.event_rur (d : Dev) (a n : Nat) : (d.event a n).rur = d.rur := rfl
@[simp] theorem Dev.event_rref (d : Dev) (a n : Nat) : (d.event a n).rref = d.rref := rfl

/-! ## `Dev.raise` -/

@[simp] theorem Dev.raise_cycle (d : Dev) (p b : Nat) : (d.raise p b).cycle = d.cycle := by unfold Dev.raise; dsimp only; split <;> (try split) <;> simp
@[simp] theorem Dev.raise_free (d : Dev) (p b : Nat) : (d.raise p b).free = d.free := by unfold Dev.raise; dsimp only; split <;> (try split) <;> simp
@[simp] theorem Dev.raise_shadow (d : Dev) (p b : Nat) : (d.raise p b).shadow = d.shadow := by unfold Dev.raise; dsimp only; split <;> (try split) <;> simp
@[simp] theorem Dev.raise_mem (d : Dev) (p b : Nat) : (d.raise p b).mem = d.mem := by unfold Dev.raise; dsimp only; split <;> (try split) <;> simp
@[simp] theorem Dev.raise_poison (d : Dev) (p b : Nat) : (d.raise p b).poison = d.poison := by unfold Dev.raise; dsimp only; split <;> (try split) <;> simp
@[simp] theorem Dev.raise_errs (d : Dev) (p b : Nat) : (d.raise p b).errs = d.errs := by unfold Dev.raise; dsimp only; split <;> (try split) <;> simp
@[simp] theorem Dev.raise_hostMem (d : Dev) (p b : Nat) : (d.raise p b).hostMem = d.hostMem := by unfold Dev.raise; dsimp only; split <;> (try split) <;> simp
@[simp] theorem Dev.raise_hostPoison (d : Dev) (p b : Nat) : (d.raise p b).hostPoison = d.hostPoison := by unfold Dev.raise; dsimp only; split <;> (try split) <;> simp
@[simp] theorem Dev.raise_cache (d : Dev) (p b : Nat) : (d.raise p b).cache = d.cache := by unfold Dev.raise; dsimp only; split <;> (try split) <;> simp
@[simp] theorem Dev.raise_trx (d : Dev) (p b : Nat) : (d.raise p b).trx = d.trx := by unfold Dev.raise; dsimp only; split <;> (try split) <;> simp
@[simp] theorem Dev.raise_sccCnt (d : Dev) (p b : Nat) : (d.raise p b).sccCnt = d.sccCnt := by unfold Dev.raise; dsimp only; split <;> (try split) <;> simp
@[simp] theorem Dev.raise_lineCnt (d : Dev) (p b : Nat) : (d.raise p b).lineCnt = d.lineCnt := by unfold Dev.raise; dsimp only; split <;> (try split) <;> simp
@[simp] theorem Dev.raise_stackT (d : Dev) (p b : Nat) : (d.raise p b).stackT = d.stackT := by unfold Dev.raise; dsimp only; split <;> (try split) <;> simp
@[simp] theorem Dev.raise_cores (d : Dev) (p b : Nat) : (d.raise p b).cores = d.cores := by unfold Dev.raise; dsimp only; split <;> (try split) <;> simp
@[simp] theorem Dev.raise_redBuf (d : Dev) (p b : Nat) : (d.raise p b).redBuf = d.redBuf := by unfold Dev.raise; dsimp only; split <;> (try split) <;> simp
@[simp] theorem Dev.raise_redNo (d : Dev) (p b : Nat) : (d.raise p b).redNo = d.redNo := by unfold Dev.raise; dsimp only; split <;> (try split) <;> simp
@[simp] theorem Dev.raise_redFly (d : Dev) (p b : Nat) : (d.raise p b).redFly = d.redFly := by unfold Dev.raise; dsimp only; split <;> (try split) <;> simp
@[simp] theorem Dev.raise_redOut (d : Dev) (p b : Nat) : (d.raise p b).redOut = d.redOut := by unfold Dev.raise; dsimp only; split <;> (try split) <;> simp
@[simp] theorem Dev.raise_redLate (d : Dev) (p b : Nat) : (d.raise p b).redLate = d.redLate := by unfold Dev.raise; dsimp only; split <;> (try split) <;> simp
@[simp] theorem Dev.raise_chans (d : Dev) (p b : Nat) : (d.raise p b).chans = d.chans := by unfold Dev.raise; dsimp only; split <;> (try split) <;> simp
@[simp] theorem Dev.raise_images (d : Dev) (p b : Nat) : (d.raise p b).images = d.images := by unfold Dev.raise; dsimp only; split <;> (try split) <;> simp
@[simp] theorem Dev.raise_imageNo (d : Dev) (p b : Nat) : (d.raise p b).imageNo = d.imageNo := by unfold Dev.raise; dsimp only; split <;> (try split) <;> simp
@[simp] theorem Dev.raise_armT (d : Dev) (p b : Nat) : (d.raise p b).armT = d.armT := by unfold Dev.raise; dsimp only; split <;> (try split) <;> simp
@[simp] theorem Dev.raise_readyT (d : Dev) (p b : Nat) : (d.raise p b).readyT = d.readyT := by unfold Dev.raise; dsimp only; split <;> (try split) <;> simp
@[simp] theorem Dev.raise_armHwm (d : Dev) (p b : Nat) : (d.raise p b).armHwm = d.armHwm := by unfold Dev.raise; dsimp only; split <;> (try split) <;> simp
@[simp] theorem Dev.raise_gateSends (d : Dev) (p b : Nat) : (d.raise p b).gateSends = d.gateSends := by unfold Dev.raise; dsimp only; split <;> (try split) <;> simp
@[simp] theorem Dev.raise_owl (d : Dev) (p b : Nat) : (d.raise p b).owl = d.owl := by unfold Dev.raise; dsimp only; split <;> (try split) <;> simp
@[simp] theorem Dev.raise_sqrJobs (d : Dev) (p b : Nat) : (d.raise p b).sqrJobs = d.sqrJobs := by unfold Dev.raise; dsimp only; split <;> (try split) <;> simp
@[simp] theorem Dev.raise_sqrPages (d : Dev) (p b : Nat) : (d.raise p b).sqrPages = d.sqrPages := by unfold Dev.raise; dsimp only; split <;> (try split) <;> simp
@[simp] theorem Dev.raise_sqrCopy (d : Dev) (p b : Nat) : (d.raise p b).sqrCopy = d.sqrCopy := by unfold Dev.raise; dsimp only; split <;> (try split) <;> simp
@[simp] theorem Dev.raise_sqrHeld (d : Dev) (p b : Nat) : (d.raise p b).sqrHeld = d.sqrHeld := by unfold Dev.raise; dsimp only; split <;> (try split) <;> simp
@[simp] theorem Dev.raise_sqrStage (d : Dev) (p b : Nat) : (d.raise p b).sqrStage = d.sqrStage := by unfold Dev.raise; dsimp only; split <;> (try split) <;> simp
@[simp] theorem Dev.raise_sqrUsed (d : Dev) (p b : Nat) : (d.raise p b).sqrUsed = d.sqrUsed := by unfold Dev.raise; dsimp only; split <;> (try split) <;> simp
@[simp] theorem Dev.raise_sqrFt (d : Dev) (p b : Nat) : (d.raise p b).sqrFt = d.sqrFt := by unfold Dev.raise; dsimp only; split <;> (try split) <;> simp
@[simp] theorem Dev.raise_sqrQ (d : Dev) (p b : Nat) : (d.raise p b).sqrQ = d.sqrQ := by unfold Dev.raise; dsimp only; split <;> (try split) <;> simp
@[simp] theorem Dev.raise_sqrTouch (d : Dev) (p b : Nat) : (d.raise p b).sqrTouch = d.sqrTouch := by unfold Dev.raise; dsimp only; split <;> (try split) <;> simp
@[simp] theorem Dev.raise_sqrPrev (d : Dev) (p b : Nat) : (d.raise p b).sqrPrev = d.sqrPrev := by unfold Dev.raise; dsimp only; split <;> (try split) <;> simp
@[simp] theorem Dev.raise_sqrOld (d : Dev) (p b : Nat) : (d.raise p b).sqrOld = d.sqrOld := by unfold Dev.raise; dsimp only; split <;> (try split) <;> simp
@[simp] theorem Dev.raise_sqrCom (d : Dev) (p b : Nat) : (d.raise p b).sqrCom = d.sqrCom := by unfold Dev.raise; dsimp only; split <;> (try split) <;> simp
@[simp] theorem Dev.raise_hwSends (d : Dev) (p b : Nat) : (d.raise p b).hwSends = d.hwSends := by unfold Dev.raise; dsimp only; split <;> (try split) <;> simp
@[simp] theorem Dev.raise_fences (d : Dev) (p b : Nat) : (d.raise p b).fences = d.fences := by unfold Dev.raise; dsimp only; split <;> (try split) <;> simp
@[simp] theorem Dev.raise_epochJob (d : Dev) (p b : Nat) : (d.raise p b).epochJob = d.epochJob := by unfold Dev.raise; dsimp only; split <;> (try split) <;> simp
@[simp] theorem Dev.raise_fab (d : Dev) (p b : Nat) : (d.raise p b).fab = d.fab := by unfold Dev.raise; dsimp only; split <;> (try split) <;> simp
@[simp] theorem Dev.raise_cb (d : Dev) (p b : Nat) : (d.raise p b).cb = d.cb := by unfold Dev.raise; dsimp only; split <;> (try split) <;> simp
@[simp] theorem Dev.raise_tick (d : Dev) (p b : Nat) : (d.raise p b).tick = d.tick := by unfold Dev.raise; dsimp only; split <;> (try split) <;> simp
@[simp] theorem Dev.raise_budget (d : Dev) (p b : Nat) : (d.raise p b).budget = d.budget := by unfold Dev.raise; dsimp only; split <;> (try split) <;> simp
@[simp] theorem Dev.raise_leaveQ (d : Dev) (p b : Nat) : (d.raise p b).leaveQ = d.leaveQ := by unfold Dev.raise; dsimp only; split <;> (try split) <;> simp
@[simp] theorem Dev.raise_grants (d : Dev) (p b : Nat) : (d.raise p b).grants = d.grants := by unfold Dev.raise; dsimp only; split <;> (try split) <;> simp
@[simp] theorem Dev.raise_pw (d : Dev) (p b : Nat) : (d.raise p b).pw = d.pw := by unfold Dev.raise; dsimp only; split <;> (try split) <;> simp
@[simp] theorem Dev.raise_tru (d : Dev) (p b : Nat) : (d.raise p b).tru = d.tru := by unfold Dev.raise; dsimp only; split <;> (try split) <;> simp
@[simp] theorem Dev.raise_fw (d : Dev) (p b : Nat) : (d.raise p b).fw = d.fw := by unfold Dev.raise; dsimp only; split <;> (try split) <;> simp
@[simp] theorem Dev.raise_msix (d : Dev) (p b : Nat) : (d.raise p b).msix = d.msix := by unfold Dev.raise; dsimp only; split <;> (try split) <;> simp
@[simp] theorem Dev.raise_msixEn (d : Dev) (p b : Nat) : (d.raise p b).msixEn = d.msixEn := by unfold Dev.raise; dsimp only; split <;> (try split) <;> simp
@[simp] theorem Dev.raise_rdata (d : Dev) (p b : Nat) : (d.raise p b).rdata = d.rdata := by unfold Dev.raise; dsimp only; split <;> (try split) <;> simp
@[simp] theorem Dev.raise_rpoison (d : Dev) (p b : Nat) : (d.raise p b).rpoison = d.rpoison := by unfold Dev.raise; dsimp only; split <;> (try split) <;> simp
@[simp] theorem Dev.raise_rur (d : Dev) (p b : Nat) : (d.raise p b).rur = d.rur := by unfold Dev.raise; dsimp only; split <;> (try split) <;> simp
@[simp] theorem Dev.raise_rref (d : Dev) (p b : Nat) : (d.raise p b).rref = d.rref := by unfold Dev.raise; dsimp only; split <;> (try split) <;> simp

/-! ## The machine -/

@[simp] theorem State.onDev_pending (s : State) (f : Dev → Dev) : (s.onDev f).pending = s.pending := rfl
@[simp] theorem State.onDev_toDev (s : State) (f : Dev → Dev) : (s.onDev f).toDev = f s.toDev := rfl

/-! ## Reads after updates -/

theorem Dev.reg_setReg (d : Dev) (a b : Nat) (w : Word) : (d.setReg a w).reg b = if b = a then w else d.reg b := by
  unfold Dev.reg Dev.setReg
  by_cases h : b = a
  · subst h; simp
  · simp only [h, if_false]; exact Tbl.getD_store_ne _ h _ _ _

@[simp] theorem Dev.reg_setReg_self (d : Dev) (a : Nat) (w : Word) : (d.setReg a w).reg a = w := by simp [Dev.reg_setReg]
theorem Dev.reg_setReg_ne (d : Dev) {a b : Nat} (h : b ≠ a) (w : Word) : (d.setReg a w).reg b = d.reg b := by simp [Dev.reg_setReg, h]

theorem Dev.core_setCore (d : Dev) (c e : Nat) (k : Core) : (d.setCore c k).core e = if e = c then k else d.core e := by
  unfold Dev.core Dev.setCore; exact Tbl.getD_store _ _ _ _ _

@[simp] theorem Dev.core_setCore_self (d : Dev) (c : Nat) (k : Core) : (d.setCore c k).core c = k := by simp [Dev.core_setCore]
theorem Dev.core_setCore_ne (d : Dev) {c e : Nat} (h : e ≠ c) (k : Core) : (d.setCore c k).core e = d.core e := by simp [Dev.core_setCore, h]

@[simp] theorem Dev.core_onCore_self (d : Dev) (c : Nat) (f : Core → Core) : (d.onCore c f).core c = f (d.core c) := by
  unfold Dev.onCore; simp
theorem Dev.core_onCore_ne (d : Dev) {c e : Nat} (h : e ≠ c) (f : Core → Core) : (d.onCore c f).core e = d.core e := by
  unfold Dev.onCore; exact Dev.core_setCore_ne d h _
theorem Dev.core_onCore (d : Dev) (c e : Nat) (f : Core → Core) : (d.onCore c f).core e = if e = c then f (d.core c) else d.core e := by
  unfold Dev.onCore; exact Dev.core_setCore d c e _

@[simp] theorem Dev.core_setReg (d : Dev) (a : Nat) (w : Word) (c : Nat) : (d.setReg a w).core c = d.core c := rfl
@[simp] theorem Dev.core_putB (d : Dev) (a n : Nat) (v : Bool) (c : Nat) : (d.putB a n v).core c = d.core c := rfl
@[simp] theorem Dev.core_setF (d : Dev) (a hi lo v : Nat) (c : Nat) : (d.setF a hi lo v).core c = d.core c := rfl
@[simp] theorem Dev.core_inc (d : Dev) (a n : Nat) (c : Nat) : (d.inc a n).core c = d.core c := rfl
@[simp] theorem Dev.core_incWrap (d : Dev) (a n : Nat) (c : Nat) : (d.incWrap a n).core c = d.core c := rfl
@[simp] theorem Dev.core_useFree (d : Dev)  (c : Nat) : (d.useFree ).core c = d.core c := rfl
@[simp] theorem Dev.core_setPoison (d : Dev) (b : Nat) (p : Bool) (c : Nat) : (d.setPoison b p).core c = d.core c := rfl
@[simp] theorem Dev.core_setChan (d : Dev) (ch : Nat) (k : DmaChan) (c : Nat) : (d.setChan ch k).core c = d.core c := rfl
@[simp] theorem Dev.core_setStack (d : Dev) (i : Nat) (k : Stack) (c : Nat) : (d.setStack i k).core c = d.core c := rfl
@[simp] theorem Dev.core_event (d : Dev) (a n : Nat) (c : Nat) : (d.event a n).core c = d.core c := rfl
@[simp] theorem Dev.core_owlEv (d : Dev) (k n : Nat) (c : Nat) : (d.owlEv k n).core c = d.core c := by simp [Dev.core]
@[simp] theorem Dev.core_sendMsix (d : Dev) (v : Nat) (c : Nat) : (d.sendMsix v).core c = d.core c := by simp [Dev.core]
@[simp] theorem Dev.core_source (d : Dev) (p b v : Nat) (c : Nat) : (d.source p b v).core c = d.core c := by simp [Dev.core]
@[simp] theorem Dev.core_raise (d : Dev) (p b : Nat) (c : Nat) : (d.raise p b).core c = d.core c := by simp [Dev.core]
@[simp] theorem Dev.reg_setCore (d : Dev) (c : Nat) (k : Core) (x : Nat) : (d.setCore c k).reg x = d.reg x := rfl
@[simp] theorem Dev.reg_onCore (d : Dev) (c : Nat) (f : Core → Core) (x : Nat) : (d.onCore c f).reg x = d.reg x := rfl
@[simp] theorem Dev.reg_progress (d : Dev) (c : Nat) (x : Nat) : (d.progress c).reg x = d.reg x := rfl
@[simp] theorem Dev.reg_useFree (d : Dev)  (x : Nat) : (d.useFree ).reg x = d.reg x := rfl
@[simp] theorem Dev.reg_setPoison (d : Dev) (b : Nat) (p : Bool) (x : Nat) : (d.setPoison b p).reg x = d.reg x := rfl
@[simp] theorem Dev.reg_setChan (d : Dev) (ch : Nat) (k : DmaChan) (x : Nat) : (d.setChan ch k).reg x = d.reg x := rfl
@[simp] theorem Dev.reg_setStack (d : Dev) (i : Nat) (k : Stack) (x : Nat) : (d.setStack i k).reg x = d.reg x := rfl
@[simp] theorem Dev.reg_event (d : Dev) (a n : Nat) (x : Nat) : (d.event a n).reg x = d.reg x := rfl
@[simp] theorem Dev.reg_owlEv (d : Dev) (k n : Nat) (x : Nat) : (d.owlEv k n).reg x = d.reg x := by simp [Dev.reg]
@[simp] theorem Dev.reg_sendMsix (d : Dev) (v : Nat) (x : Nat) : (d.sendMsix v).reg x = d.reg x := by simp [Dev.reg]
@[simp] theorem Dev.reg_source (d : Dev) (p b v : Nat) (x : Nat) : (d.source p b v).reg x = d.reg x := by simp [Dev.reg]

theorem Dev.reg_putB (d : Dev) (a n b : Nat) (v : Bool) : (d.putB a n v).reg b = if b = a then putBit (d.reg a) n v else d.reg b := Dev.reg_setReg _ _ _ _
theorem Dev.reg_setF (d : Dev) (a hi lo v b : Nat) : (d.setF a hi lo v).reg b = if b = a then setFld (d.reg a) hi lo v else d.reg b := Dev.reg_setReg _ _ _ _
theorem Dev.reg_inc (d : Dev) (a n b : Nat) : (d.inc a n).reg b = if b = a then satAdd (d.reg a) n else d.reg b := Dev.reg_setReg _ _ _ _
theorem Dev.reg_incWrap (d : Dev) (a n b : Nat) : (d.incWrap a n).reg b = if b = a then d.reg a + BitVec.ofNat 32 n else d.reg b := Dev.reg_setReg _ _ _ _

/-- Raising an error bit changes only that page's ERR_STAT. -/
theorem Dev.reg_raise (d : Dev) (p b x : Nat) :
    (d.raise p b).reg x = if x = p + 0x10 then (if d.bit (p + 0x10) b then d.reg x else putBit (d.reg x) b true) else d.reg x := by
  unfold Dev.raise
  split
  · simp
  · dsimp only
    split <;> simp only [Dev.reg_source, Dev.reg_putB, Dev.reg_event] <;> split <;> simp_all

/-- A raised error bit is set. -/
theorem Dev.bit_raise (d : Dev) (p b : Nat) (h : b < 32) : (d.raise p b).bit (p + 0x10) b = true := by
  by_cases hb : d.bit (p + 0x10) b
  · rw [Dev.bit, Dev.reg_raise, if_pos rfl, if_pos hb]; exact hb
  · rw [Dev.bit, Dev.reg_raise, if_pos rfl, if_neg hb]; exact flag_putBit_self _ _ _ h

end Sys2Proof.Machine
end

