-- ==== Sys2Proof/Laws/Issue.lean ====
section
/-! SUPPORT. Laws of the issue of stream words: what a word that issues does, slot by slot. -/

namespace Sys2Proof.Machine

/-- The issue of a word of either stream. -/
def StreamWord.issue (w : StreamWord) (c : Nat) (d : Dev) : Dev :=
  match w with
  | .x v => d.issueX c v
  | .a v => d.issueA c v

/-- The effect of a word that issues (R143). -/
def StreamWord.effect (w : StreamWord) (c : Nat) (d : Dev) : Dev :=
  match w with
  | .x v => ((d.vectorEffect c v.v).matrixEffect c v.m ((d.core c).x.pc)).issued c true v.s v.y
  | .a v => (d.onCore c (fun k => (k.accessTransfers c v d.cycle k.a.pc (d.tableOld c v)).accessAgsets v)).issued c false v.s v.y

/-- Every stream-word command issues its word, while the core's clock runs. -/
theorem exec_word {i : Instr} {c : CoreNo} {w : StreamWord} (h : i.word = some (c, w)) (s : State) :
    exec i s = .next (s.onDev (fun d => d.clocked (w.issue c))) := by
  cases i <;> simp only [Instr.word, Option.some.injEq, Prod.mk.injEq, reduceCtorEq] at h <;> obtain ⟨rfl, rfl⟩ := h <;>
    first
    | rfl
    | (rename_i w'; cases w' <;> rfl)

theorem StreamWord.issue_eq {w : StreamWord} {c : Nat} {d : Dev} (h : w.issues c d) : w.issue c d = w.effect c d := by
  obtain ⟨⟨-, hm⟩, hc⟩ := h
  cases w with
  | x v => simp only [StreamWord.exec, StreamWord.check] at hm hc; simp only [StreamWord.issue, StreamWord.effect, Dev.issueX, hm, hc]; rfl
  | a v => simp only [StreamWord.exec, StreamWord.check] at hm hc; simp only [StreamWord.issue, StreamWord.effect, Dev.issueA, hm, hc]; rfl

/-- A word that issues completes with its effect. -/
theorem completes_word {i : Instr} {c : CoreNo} {w : StreamWord} (h : i.word = some (c, w)) {s : State} (hr : w.issues c s.toDev)
    {P : State → Prop} (hp : P (s.onDev (w.effect c))) : Completes i s P := by
  refine ⟨_, exec_word h s, ?_⟩
  have hc : s.toDev.clockOn = true := hr.1.1
  have e : s.onDev (fun d => d.clocked (w.issue c)) = s.onDev (w.effect c) := by
    simp only [State.onDev, Dev.clocked, hc, if_true, StreamWord.issue_eq hr]
  rw [e]; exact hp

/-! ## Streams of a core -/

@[simp] theorem Core.stream_setStream (k : Core) (e : Bool) (s : Stream) : (k.setStream e s).stream e = s := by cases e <;> rfl
@[simp] theorem Core.stream_setStream_not (k : Core) (e : Bool) (s : Stream) : (k.setStream (!e) s).stream e = k.stream e := by cases e <;> rfl
@[simp] theorem Core.stream_not_setStream (k : Core) (e : Bool) (s : Stream) : (k.setStream e s).stream (!e) = k.stream (!e) := by cases e <;> rfl

/-! ## Sync slot -/

theorem Core.flagSync_eq (k : Core) (n : Nat) : ∃ p t u,
    k.flagSync n = { k with flagCyc := n, flagPre := p, flagSet := t, flagTaken := u } := by
  unfold Core.flagSync
  split
  · exact ⟨k.flagPre, k.flagSet, k.flagTaken, by subst n; rfl⟩
  · exact ⟨_, _, _, rfl⟩

@[simp] theorem Core.flagSync_flags (k : Core) (n : Nat) : (k.flagSync n).flags = k.flags := by
  unfold Core.flagSync; split <;> rfl

theorem Dev.setFlags_core (d : Dev) (c m : Nat) : (d.setFlags c m).core c =
    { ((d.core c).flagSync d.cycle) with
        flags := ((d.core c).flags ||| m) % 65536, flagSet := ((d.core c).flagSync d.cycle).flagSet ||| m,
        progress := ((d.core c).flagSync d.cycle).progress || decide (((d.core c).flags ||| m) % 65536 ≠ (d.core c).flags) } := by
  unfold Dev.setFlags
  simp only [Core.flagSync_flags]
  split
  · rw [Dev.core_setCore_self]
  · rw [Dev.core_raise, Dev.core_inc, Dev.core_setCore_self]

theorem Dev.clrFlags_core (d : Dev) (c m : Nat) : ∃ g, (d.clrFlags c m).core c =
    { ((d.core c).flagSync d.cycle) with
        flags := (d.core c).flags &&& (0xFFFF ^^^ (m &&& (0xFFFF ^^^ ((d.core c).flagSync d.cycle).flagSet)) % 65536), progress := g } := by
  unfold Dev.clrFlags
  simp only [Core.flagSync_flags, Dev.core_setCore_self]
  exact ⟨_, rfl⟩

/-- A core but for its flags and their bookkeeping. -/
def Core.SameButFlags (k n : Core) : Prop := ∃ f p t u cy g, n = { k with flags := f, flagPre := p, flagSet := t, flagTaken := u, flagCyc := cy, progress := g }

theorem Core.sameButFlags_refl (k : Core) : k.SameButFlags k := ⟨_, _, _, _, _, _, rfl⟩

theorem Dev.setFlags_same (d : Dev) (c m : Nat) : (d.core c).SameButFlags ((d.setFlags c m).core c) := by
  obtain ⟨p, t, u, h⟩ := Core.flagSync_eq (d.core c) d.cycle
  rw [Dev.setFlags_core, h]
  exact ⟨_, _, _, _, _, _, rfl⟩

theorem Dev.clrFlags_same (d : Dev) (c m : Nat) : (d.core c).SameButFlags ((d.clrFlags c m).core c) := by
  obtain ⟨p, t, u, h⟩ := Core.flagSync_eq (d.core c) d.cycle
  obtain ⟨g, h'⟩ := Dev.clrFlags_core d c m
  rw [h', h]
  exact ⟨_, _, _, _, _, _, rfl⟩

theorem Core.SameButFlags.trans {k n m : Core} (h : k.SameButFlags n) (h' : n.SameButFlags m) : k.SameButFlags m := by
  obtain ⟨_, _, _, _, _, _, rfl⟩ := h
  obtain ⟨_, _, _, _, _, _, rfl⟩ := h'
  exact ⟨_, _, _, _, _, _, rfl⟩

/-- The epoch mark of a stream replaced. -/
def Core.mark (K : Core) (e : Bool) (n : Nat) : Core := K.setStream e { (K.stream e) with epoch := n }

theorem Core.mark_self (K : Core) (e : Bool) : K.mark e (K.stream e).epoch = K := by cases e <;> rfl

/-- A sync slot: the flags it leaves, and the epoch mark of its stream (R167, R427). -/
theorem Dev.syncEffect_core (d : Dev) (c : Nat) (e : Bool) (y : Nat) : ∃ K, (d.core c).SameButFlags K ∧
    (d.syncEffect c e y).core c = K.mark e (if yOp y = 3 then yArg y else (K.stream e).epoch) ∧
    (K.flags = if yOp y = 1 then ((d.core c).flags ||| yArg y) % 65536
      else if yOp y = 2 ∧ yConsume y = true then (d.core c).flags &&&
        (0xFFFF ^^^ (yArg y &&& (0xFFFF ^^^ ((d.core c).flagSync d.cycle).flagSet)) % 65536)
      else (d.core c).flags) := by
  unfold Dev.syncEffect
  split
  · rename_i h
    refine ⟨(d.setFlags c (yArg y)).core c, Dev.setFlags_same d c (yArg y), ?_, ?_⟩
    · rw [h, if_neg (by decide), Core.mark_self]
    · rw [h, if_pos rfl, Dev.setFlags_core]
  · rename_i h
    split
    · rename_i hc
      let d1 := d.onCore c (fun k => { (k.flagSync d.cycle) with flagTaken := (k.flagSync d.cycle).flagTaken ||| yArg y })
      obtain ⟨p, t, u, h1⟩ := Core.flagSync_eq (d.core c) d.cycle
      have e0 : d1.core c = { (d.core c) with flagCyc := d.cycle, flagPre := p, flagSet := t, flagTaken := u ||| yArg y } := by
        show (d.onCore c _).core c = _
        rw [Dev.core_onCore_self, h1]
      have e2 : d1.cycle = d.cycle := rfl
      have e3 : (d1.core c).flagSync d1.cycle = d1.core c := by rw [e0, e2]; simp [Core.flagSync]
      refine ⟨(d1.clrFlags c (yArg y)).core c, ?_, ?_, ?_⟩
      · refine Core.SameButFlags.trans ?_ (Dev.clrFlags_same d1 c (yArg y))
        rw [e0]
        exact ⟨_, _, _, _, _, _, rfl⟩
      · rw [h, if_neg (by decide), Core.mark_self]
      · rw [h, if_neg (by decide), if_pos ⟨rfl, hc⟩]
        obtain ⟨g, e1⟩ := Dev.clrFlags_core d1 c (yArg y)
        rw [e1, e3, e0, h1]
    · rename_i hc
      refine ⟨d.core c, Core.sameButFlags_refl _, ?_, ?_⟩
      · rw [h, if_neg (by decide), Core.mark_self]
      · rw [h, if_neg (by decide), if_neg (fun x => hc x.2)]
  · rename_i h
    refine ⟨d.core c, Core.sameButFlags_refl _, ?_, ?_⟩
    · rw [h, if_pos rfl, Dev.core_onCore_self]; rfl
    · rw [h, if_neg (by decide), if_neg (by simp)]
  · rename_i h1 h2 h3
    refine ⟨d.core c, Core.sameButFlags_refl _, ?_, ?_⟩
    · rw [if_neg h3, Core.mark_self]
    · rw [if_neg h1, if_neg (fun x => h2 x.1)]

/-- A word that issued: its core after its sync slot and its scalar slot. -/
theorem Dev.issued_core (d : Dev) (c : Nat) (e : Bool) (sl y : Nat) : ∃ K g, (d.core c).SameButFlags K ∧
    (d.issued c e sl y).core c =
      { (K.setStream e (({ (K.stream e) with epoch := if yOp y = 3 then yArg y else (K.stream e).epoch } : Stream).scalar sl d.cycle))
        with progress := true, atEpoch := g } ∧
    (K.flags = if yOp y = 1 then ((d.core c).flags ||| yArg y) % 65536
      else if yOp y = 2 ∧ yConsume y = true then (d.core c).flags &&&
        (0xFFFF ^^^ (yArg y &&& (0xFFFF ^^^ ((d.core c).flagSync d.cycle).flagSet)) % 65536)
      else (d.core c).flags) := by
  obtain ⟨K, h1, h2, h3⟩ := Dev.syncEffect_core d c e y
  refine ⟨K, yOp y == 3 && ((d.syncEffect c e y).core c).reached (yArg y), h1, ?_, h3⟩
  unfold Dev.issued
  simp only [Dev.core_incWrap, Dev.core_onCore_self, h2, Core.mark, Core.stream_setStream]
  cases e <;> rfl

end Sys2Proof.Machine
end

