-- ==== Sys2Proof/Laws/Memory.lean ====
section
/-! SUPPORT. Laws of memory: every memory operation keeps the canonical form of both memories and the lines of the home
slices whole; a byte reads as it was written, and every other byte as before. -/

namespace Sys2Proof.Machine

/-! ## Cells -/

theorem cellAt_cellPut (m : List Host.Cell) (a x : Nat) (b : Byte) : cellAt (cellPut m a b) x = if x = a then b else cellAt m x := by
  unfold cellAt cellPut; exact Tbl.getD_store _ _ _ _ _

/-- A byte within the bytes written reads as written; every other byte as before. -/
theorem cellAt_cellsPut (l : List Byte) : ∀ (m : List Host.Cell) (a x : Nat),
    cellAt (cellsPut m a l) x = if a ≤ x ∧ x < a + l.length then l.getD (x - a) 0 else cellAt m x := by
  induction l with
  | nil => intro m a x; simp only [cellsPut, List.length_nil]; rw [if_neg (by omega)]
  | cons b t ih =>
    intro m a x
    simp only [cellsPut, ih, List.length_cons, cellAt_cellPut]
    by_cases h : x = a
    · subst x; rw [if_neg (by omega), if_pos rfl, if_pos (by omega)]; simp
    · by_cases h2 : a + 1 ≤ x ∧ x < a + 1 + t.length
      · rw [if_pos h2, if_pos (by omega)]
        obtain ⟨n, hn⟩ : ∃ n, x - a = n + 1 := ⟨x - a - 1, by omega⟩
        rw [hn, show x - (a + 1) = n by omega]; simp
      · rw [if_neg h2, if_neg h, if_neg (by omega)]

theorem Memory.wf_cellPut {m : List Host.Cell} (h : Memory.wf m = true) (a : Nat) (b : Byte) : Memory.wf (cellPut m a b) = true := by
  simp only [Memory.wf, Bool.and_eq_true] at h ⊢
  refine ⟨Tbl.rises_store _ _ _ _ h.1, ?_⟩
  unfold cellPut Tbl.store
  split
  · exact Tbl.all_filter h.2
  · exact Tbl.all_put (by simpa using ‹¬ _›) h.2

theorem Memory.wf_cellsPut (l : List Byte) : ∀ {m : List Host.Cell} (_ : Memory.wf m = true) (a : Nat), Memory.wf (cellsPut m a l) = true := by
  induction l with
  | nil => intro m h a; exact h
  | cons b t ih => intro m h a; exact ih (Memory.wf_cellPut h a b) (a + 1)

theorem Memory.wf_filter {m : List Host.Cell} (h : Memory.wf m = true) (f : Host.Cell → Bool) : Memory.wf (m.filter f) = true := by
  simp only [Memory.wf, Bool.and_eq_true] at h ⊢
  exact ⟨Tbl.rises_filter _ _ h.1, Tbl.all_filter h.2⟩

/-! ## Lines of a home slice -/

theorem padTo_length {α : Type} (n : Nat) (d : α) (l : List α) : (padTo n d l).length = n := by simp [padTo]

theorem CLine.whole_empty : ({} : CLine).whole := ⟨by simp, by simp⟩

theorem CLine.whole_set {l : CLine} (h : l.whole) (k : Nat) (data : List Byte) (p dirty : Bool) : (l.set k data p dirty).whole := by
  unfold CLine.set
  split
  · exact ⟨fun _ => padTo_length _ _ _, h.2⟩
  · exact ⟨h.1, fun _ => padTo_length _ _ _⟩

theorem Tbl.mem_put {α : Type} {t : Tbl α} {x : Nat} {v : α} {p : Nat × α} (h : p ∈ Tbl.put t x v) : p = (x, v) ∨ p ∈ t := by
  induction t with
  | nil => simp [Tbl.put] at h; exact .inl h
  | cons q t ih =>
    obtain ⟨k, w⟩ := q
    simp only [Tbl.put] at h
    split at h
    · simpa using h
    · split at h
      · simp only [List.mem_cons] at h ⊢; rcases h with h | h
        · exact .inl h
        · exact .inr (.inr h)
      · simp only [List.mem_cons] at h ⊢; rcases h with h | h
        · exact .inr (.inl h)
        · rcases ih h with h | h
          · exact .inl h
          · exact .inr (.inr h)

theorem Tbl.look_mem {α : Type} {t : Tbl α} {x : Nat} {v : α} (h : Tbl.look t x = some v) : (x, v) ∈ t := by
  induction t with
  | nil => simp at h
  | cons q t ih =>
    obtain ⟨k, w⟩ := q
    simp only [Tbl.look] at h
    split at h
    · subst x; simp_all
    · exact List.mem_cons_of_mem _ (ih h)

/-! ## What every memory operation keeps -/

/-- Both memories are in their canonical form, and every cached line is whole. -/
def Dev.MemInv (d : Dev) : Prop := Memory.wf d.mem = true ∧ Memory.wf d.hostMem = true ∧ ∀ p ∈ d.cache, p.2.whole

theorem Dev.MemInv.same {d e : Dev} (h : d.MemInv) (h1 : e.mem = d.mem) (h2 : e.hostMem = d.hostMem) (h3 : e.cache = d.cache) : e.MemInv := by
  unfold Dev.MemInv; rw [h1, h2, h3]; exact h

theorem Dev.MemInv.either {p : Prop} [Decidable p] {d e : Dev} (h1 : d.MemInv) (h2 : e.MemInv) : (if p then d else e).MemInv := by split <;> assumption

theorem Dev.MemInv.line {d : Dev} (h : d.MemInv) (k : Nat) : (d.line k).whole := by
  unfold Dev.line Tbl.getD
  cases e : Tbl.look d.cache (k / 128) with
  | none => exact CLine.whole_empty
  | some l => exact h.2.2 _ (Tbl.look_mem e)

theorem Dev.MemInv.putLine {d : Dev} (h : d.MemInv) {x : Nat} {l : CLine} (hl : l.whole) : Dev.MemInv { d with cache := d.cache.put x l } := by
  refine ⟨h.1, h.2.1, fun p hp => ?_⟩
  rcases Tbl.mem_put hp with rfl | hp
  · exact hl
  · exact h.2.2 p hp

theorem Dev.MemInv.delLine {d : Dev} (h : d.MemInv) (x : Nat) : Dev.MemInv { d with cache := d.cache.del x } :=
  ⟨h.1, h.2.1, fun p hp => h.2.2 p (List.mem_filter.mp hp).1⟩

theorem Dev.MemInv.putMem {d : Dev} (h : d.MemInv) (a : Nat) (l : List Byte) (e : Tbl (List SymErr)) :
    Dev.MemInv { d with mem := cellsPut d.mem a l, errs := e } := ⟨Memory.wf_cellsPut l h.1 a, h.2⟩

/-! ### Operations that store nothing -/

@[simp] theorem Dev.MemInv_owl {d : Dev} {o : Owl} : Dev.MemInv { d with owl := o } ↔ d.MemInv := Iff.rfl
@[simp] theorem Dev.MemInv_setReg {d : Dev} {a : Nat} {w : Word} : (d.setReg a w).MemInv ↔ d.MemInv := Iff.rfl
@[simp] theorem Dev.MemInv_putB {d : Dev} {a n : Nat} {b : Bool} : (d.putB a n b).MemInv ↔ d.MemInv := Iff.rfl
@[simp] theorem Dev.MemInv_setF {d : Dev} {a hi lo v : Nat} : (d.setF a hi lo v).MemInv ↔ d.MemInv := Iff.rfl
@[simp] theorem Dev.MemInv_inc {d : Dev} {a n : Nat} : (d.inc a n).MemInv ↔ d.MemInv := Iff.rfl
@[simp] theorem Dev.MemInv_incWrap {d : Dev} {a n : Nat} : (d.incWrap a n).MemInv ↔ d.MemInv := Iff.rfl
@[simp] theorem Dev.MemInv_setCore {d : Dev} {c : Nat} {k : Core} : (d.setCore c k).MemInv ↔ d.MemInv := Iff.rfl
@[simp] theorem Dev.MemInv_onCore {d : Dev} {c : Nat} {f : Core → Core} : (d.onCore c f).MemInv ↔ d.MemInv := Iff.rfl
@[simp] theorem Dev.MemInv_trxTake {d : Dev} {k : Nat} : (d.trxTake k).MemInv ↔ d.MemInv := Iff.rfl
@[simp] theorem Dev.MemInv_event {d : Dev} {a n : Nat} : (d.event a n).MemInv ↔ d.MemInv := Iff.rfl
@[simp] theorem Dev.MemInv_useFree {d : Dev} : d.useFree.MemInv ↔ d.MemInv := Iff.rfl
@[simp] theorem Dev.MemInv_setPoison {d : Dev} {b : Nat} {p : Bool} : (d.setPoison b p).MemInv ↔ d.MemInv := Iff.rfl
@[simp] theorem Dev.MemInv_setStack {d : Dev} {i : Nat} {k : Stack} : (d.setStack i k).MemInv ↔ d.MemInv := Iff.rfl
@[simp] theorem Dev.MemInv_setSqrJob {d : Dev} {n : Nat} {j : SqrJob} : (d.setSqrJob n j).MemInv ↔ d.MemInv := Iff.rfl
@[simp] theorem Dev.MemInv_setSqrPage {d : Dev} {n : Nat} {p : SqrPage} : (d.setSqrPage n p).MemInv ↔ d.MemInv := Iff.rfl
@[simp] theorem Dev.MemInv_setStrm {d : Dev} {n : Nat} {r : CmdStream} : (d.setStrm n r).MemInv ↔ d.MemInv := Iff.rfl
@[simp] theorem Dev.MemInv_owlEv {d : Dev} {k n : Nat} : (d.owlEv k n).MemInv ↔ d.MemInv := by simp [Dev.MemInv]
@[simp] theorem Dev.MemInv_sendMsix {d : Dev} {v : Nat} : (d.sendMsix v).MemInv ↔ d.MemInv := by simp [Dev.MemInv]
@[simp] theorem Dev.MemInv_raise {d : Dev} {p b : Nat} : (d.raise p b).MemInv ↔ d.MemInv := by simp [Dev.MemInv]
@[simp] theorem Dev.MemInv_cmemRecord {d : Dev} {c off sym cw : Nat} {ue : Bool} : (d.cmemRecord c off ue sym cw).MemInv ↔ d.MemInv := by
  unfold Dev.cmemRecord; split <;> simp
@[simp] theorem Dev.MemInv_hmcRecord {d : Dev} {i pa sym cw : Nat} {ue : Bool} : (d.hmcRecord i pa ue sym cw).MemInv ↔ d.MemInv := by
  unfold Dev.hmcRecord; split <;> simp
@[simp] theorem Dev.MemInv_badOp {d : Dev} {n : Nat} : (d.badOp n).MemInv ↔ d.MemInv := by unfold Dev.badOp; simp
@[simp] theorem Dev.MemInv_sink {d : Dev} {c : Nat} : (d.sink c).MemInv ↔ d.MemInv := by unfold Dev.sink; simp
@[simp] theorem Dev.MemInv_crossDie {d : Dev} {die pa : Nat} : (d.crossDie die pa).MemInv ↔ d.MemInv := by
  unfold Dev.crossDie; dsimp only; split <;> simp

theorem Dev.MemInv.lineCorr {d : Dev} (h : d.MemInv) (g sym : Nat) : (d.lineCorr g sym).MemInv := by
  unfold Dev.lineCorr
  dsimp only
  split
  · rw [Dev.MemInv_raise]; split
    · exact h
    · exact h
  · exact h

theorem Dev.MemInv.hmcCount {d : Dev} (h : d.MemInv) (k pa : Nat) (rs : List (Nat × CwRead)) : (d.hmcCount k pa rs).MemInv := by
  unfold Dev.hmcCount
  dsimp only
  induction rs generalizing d with
  | nil => exact h
  | cons r t ih =>
    simp only [List.foldl_cons]
    apply ih
    split
    · rw [Dev.MemInv_raise]; exact Dev.MemInv.lineCorr (by simpa using h) _ _
    · simpa using h
    · exact h

/-! ### Core memory -/

theorem Dev.MemInv.cmemRead {d : Dev} (h : d.MemInv) (c off : Nat) : (d.cmemRead c off).1.MemInv := by
  unfold Dev.cmemRead
  dsimp only
  split <;> split <;> split <;> simpa using h

theorem Dev.MemInv.cmemInject {d : Dev} (h : d.MemInv) (c a : Nat) : (d.cmemInject c a).MemInv := by
  unfold Dev.cmemInject
  dsimp only
  refine Dev.MemInv.either ?_ (Dev.MemInv_setReg.mpr ?_) <;>
    exact Dev.MemInv.either (Dev.MemInv_setPoison.mpr (Dev.MemInv.either h h)) (Dev.MemInv.either h h)

theorem Dev.MemInv.cmemWrite {d : Dev} (h : d.MemInv) (c off : Nat) (data : List Byte) (p : Bool) : (d.cmemWrite c off data p).MemInv := by
  unfold Dev.cmemWrite
  exact Dev.MemInv.cmemInject (by rw [Dev.MemInv_setPoison]; exact h.putMem _ _ _) _ _

theorem Dev.MemInv.cmemPart {d : Dev} (h : d.MemInv) (c off : Nat) (data : List Byte) (p : Bool) : (d.cmemPart c off data p).MemInv := by
  unfold Dev.cmemPart
  rw [Dev.MemInv_setPoison]
  exact (h.cmemRead c off).putMem _ _ _

/-! ### Stacked memory -/

theorem Dev.MemInv.hbmBlock {d : Dev} (h : d.MemInv) (k pa : Nat) : (d.hbmBlock k pa).1.MemInv := by
  unfold Dev.hbmBlock
  dsimp only
  split
  · simpa using h.hmcCount _ _ _
  · exact h.hmcCount _ _ _

theorem Dev.MemInv.hbmInject {d : Dev} (h : d.MemInv) (k : Nat) : (d.hbmInject k).MemInv := by
  unfold Dev.hbmInject
  dsimp only
  refine Dev.MemInv.either ?_ (Dev.MemInv_setReg.mpr ?_) <;>
    exact Dev.MemInv.either (Dev.MemInv_setPoison.mpr (Dev.MemInv.either h h)) (Dev.MemInv.either h h)

theorem Dev.MemInv.hbmStore {d : Dev} (h : d.MemInv) (k : Nat) (data : List Byte) (p : Bool) : (d.hbmStore k data p).MemInv := by
  unfold Dev.hbmStore
  dsimp only
  split
  · simpa using h
  · exact Dev.MemInv.hbmInject (by rw [Dev.MemInv_setPoison]; exact h.putMem _ _ _) _

theorem Dev.MemInv.hbmBack {d : Dev} (h : d.MemInv) (k : Nat) (data : List Byte) (p : Bool) : (d.hbmBack k data p).MemInv := by
  unfold Dev.hbmBack
  split
  · rw [Dev.MemInv_setPoison]; exact h.hbmStore _ _ _
  · exact h.hbmStore _ _ _

theorem Dev.MemInv.evict {d : Dev} (h : d.MemInv) (ln : Nat) : (d.evict ln).MemInv := by
  unfold Dev.evict
  dsimp only
  apply Dev.MemInv.delLine
  split
  · rw [Dev.MemInv_inc, Dev.MemInv_trxTake]
    split <;> split <;> first | exact h | exact h.hbmBack _ _ _ | exact (h.hbmBack _ _ _).hbmBack _ _ _
  · exact h

theorem Dev.MemInv.makeRoom {d : Dev} (h : d.MemInv) (k : Nat) : (d.makeRoom k).MemInv := by
  unfold Dev.makeRoom
  split
  · exact h
  · rw [Dev.MemInv_useFree]; exact h.evict _

theorem Dev.MemInv.putBlock {d : Dev} (h : d.MemInv) (l k : Nat) (data : List Byte) (p dirty : Bool) : (d.putBlock l k data p dirty).MemInv :=
  (h.makeRoom _).putLine (CLine.whole_set ((h.makeRoom _).line _) _ _ _ _)

theorem Dev.MemInv.hbmSet {d : Dev} (h : d.MemInv) (pa : Nat) (data : List Byte) (p : Bool) : (d.hbmSet pa data p).MemInv := h.putBlock _ _ _ _ _

theorem Dev.MemInv.fillBlock {d : Dev} (h : d.MemInv) (k pa x : Nat) : (d.fillBlock k pa x).MemInv := by
  unfold Dev.fillBlock
  have hb := h.hbmBlock (k / 128 * 128 + x) (pa / 128 * 128 + x)
  dsimp only
  split
  · exact h
  · exact hb.putBlock _ _ _ _ _

theorem Dev.MemInv.fill {d : Dev} (h : d.MemInv) (k pa : Nat) : (d.fill k pa).MemInv := (h.fillBlock _ _ _).fillBlock _ _ _

theorem Dev.MemInv.hbmRead {d : Dev} (h : d.MemInv) (pa : Nat) : (d.hbmRead pa).1.MemInv := by
  rw [Dev.hbmRead]
  generalize d.hbmKey pa = k
  extract_lets d1 d2
  have h1 : d1.MemInv := by rw [show d1.MemInv ↔ d.MemInv from Dev.MemInv_inc]; exact h
  clear_value d1
  split
  · generalize (d.line k).get k = q
    obtain ⟨a, b⟩ := q
    exact Dev.MemInv.either (by simpa using h1) h1
  · split
    · simpa using h
    · have h2 : d2.MemInv := Dev.MemInv.fill (by simpa using h) _ _
      clear_value d2
      generalize (d2.line k).get k = q
      obtain ⟨a, b⟩ := q
      exact Dev.MemInv.either (by simpa using h2) h2

theorem Dev.MemInv.hbmPut {d : Dev} (h : d.MemInv) (pa : Nat) (data : List Byte) (p : Bool) : (d.hbmPut pa data p).MemInv := by
  unfold Dev.hbmPut
  dsimp only
  split
  · simpa using h
  · exact Dev.MemInv.hbmSet (by simpa using h) _ _ _

theorem Dev.MemInv.hbmPutPart {d : Dev} (h : d.MemInv) (pa : Nat) (data : List Byte) (p : Bool) : (d.hbmPutPart pa data p).MemInv := by
  rw [Dev.hbmPutPart]
  split
  · exact h.hbmPut _ _ _
  · have hq := h.hbmRead (pa / 64 * 64)
    generalize d.hbmRead (pa / 64 * 64) = q at hq ⊢
    obtain ⟨a, b, c, e⟩ := q
    exact Dev.MemInv.either hq (hq.hbmSet _ _ _)

theorem Dev.MemInv.writeBack {d : Dev} (h : d.MemInv) (f : Nat → Bool) : (d.writeBack f).MemInv := by
  unfold Dev.writeBack
  generalize d.cache.map (fun p => p.1) = l
  induction l generalizing d with
  | nil => exact h
  | cons x t ih =>
    simp only [List.foldl_cons]
    apply ih
    split
    · exact h.evict _
    · exact h

/-! ### Whatever the target -/

theorem Dev.MemInv.hostWrite {d : Dev} (h : d.MemInv) (a : Nat) (l : List Byte) : (d.hostWrite a l).MemInv :=
  ⟨h.1, Memory.wf_cellsPut l h.2.1 a, h.2.2⟩

theorem Dev.MemInv.rawWrite {d : Dev} (h : d.MemInv) (pa : Nat) (l : List Byte) : (d.rawWrite pa l).MemInv := by
  unfold Dev.rawWrite
  split
  · exact h.hbmPutPart _ _ _
  · split
    · exact h.cmemPart _ _ _ _
    · exact h

theorem Dev.MemInv.owlRecord {d : Dev} (h : d.MemInv) (e : OwlEvent) : (d.owlRecord e).MemInv := by
  rw [Dev.owlRecord]
  generalize h2 : d.rawWrite _ _ = d1
  have h1 : d1.MemInv := by rw [← h2]; exact h.rawWrite _ _
  clear h2
  split
  · simpa using h
  · rw [Dev.MemInv_owl]; exact h1

theorem Dev.MemInv.sqrHold {d : Dev} (h : d.MemInv) (w : HeldWrite) : (d.sqrHold w).1.MemInv := by
  unfold Dev.sqrHold
  dsimp only
  split
  · exact h
  · split
    · exact h
    · split
      · exact h
      · rw [Dev.MemInv_raise]; exact Dev.MemInv.owlRecord (by simpa using h) _

theorem Dev.MemInv.hbmWrite {d : Dev} (h : d.MemInv) (pa : Nat) (l : List Byte) (p : Bool) : (d.hbmWrite pa l p).MemInv := by
  unfold Dev.hbmWrite
  dsimp only
  split
  · exact h.sqrHold _
  · exact (h.sqrHold _).hbmPutPart _ _ _

theorem Dev.MemInv.redPut {d : Dev} (h : d.MemInv) (op pa : Nat) (l : List Byte) (p : Bool) : (d.redPut op pa l p).MemInv := by
  rw [Dev.redPut]
  have hq := h.hbmRead (pa / 64 * 64)
  generalize d.hbmRead (pa / 64 * 64) = q at hq ⊢
  obtain ⟨a, b, c, e⟩ := q
  exact Dev.MemInv.either hq (by rw [Dev.MemInv_inc]; exact hq.hbmSet _ _ _)

@[simp] theorem Dev.MemInv_poisonSent {d : Dev} {die : Nat} {p : Bool} : (d.poisonSent die p).MemInv ↔ d.MemInv := by
  unfold Dev.poisonSent; split <;> simp

theorem Dev.MemInv.targetRead {d : Dev} (h : d.MemInv) (die : Nat) (job : Option Nat) (pa : Nat) : (d.targetRead die job pa).1.MemInv := by
  rw [Dev.targetRead]
  split
  · have hq : ((d.crossDie die pa).hbmRead (pa / 64 * 64)).1.MemInv := Dev.MemInv.hbmRead (by simpa using h) _
    generalize (d.crossDie die pa).hbmRead (pa / 64 * 64) = q at hq ⊢
    obtain ⟨a, b, c, e⟩ := q
    exact hq
  · split
    · next c off _ =>
      split
      · have hq := h.cmemRead c off
        generalize d.cmemRead c off = q at hq ⊢
        obtain ⟨a, b, e⟩ := q
        exact hq
      · simpa using h
    · split
      · simpa using h
      · exact h

theorem Dev.MemInv.devRead {d : Dev} (h : d.MemInv) (die : Nat) (job : Option Nat) (pa : Nat) : (d.devRead die job pa).1.MemInv := by
  unfold Dev.devRead
  exact Dev.MemInv_poisonSent.mpr (h.targetRead die job pa)

theorem Dev.MemInv.devWrite {d : Dev} (h : d.MemInv) (die : Nat) (job : Option Nat) (pa : Nat) (l : List Byte) (p : Bool) :
    (d.devWrite die job pa l p).1.MemInv := by
  unfold Dev.devWrite
  extract_lets d1
  have h1 : d1.MemInv := Dev.MemInv_poisonSent.mpr h
  clear_value d1
  split
  · exact Dev.MemInv.hbmWrite (by simpa using h1) _ _ _
  · split
    · split
      · dsimp only; split
        · exact h1.cmemWrite _ _ _ _
        · exact h1.cmemPart _ _ _ _
      · simpa using h1
    · exact h1

theorem Dev.MemInv.devWriteN {d : Dev} (h : d.MemInv) (die : Nat) (job : Option Nat) (pa : Nat) (l : List Byte) (p : Bool) :
    (d.devWriteN die job pa l p).MemInv := by
  unfold Dev.devWriteN
  generalize cutBlocks pa l = q
  induction q generalizing d with
  | nil => exact h
  | cons x t ih => simp only [List.foldl_cons]; exact ih (h.devWrite _ _ _ _ _)

theorem Dev.MemInv.devReadN {d : Dev} (h : d.MemInv) (die : Nat) (job : Option Nat) (pa n : Nat) : (d.devReadN die job pa n).1.MemInv := by
  unfold Dev.devReadN
  dsimp only
  have : ∀ (q : List Nat) (acc : Dev × Got), acc.1.MemInv → (q.foldl (fun (acc : Dev × Got) i =>
      let (d1, g) := acc.1.devRead die job (pa / 64 * 64 + 64 * i)
      (d1, ⟨acc.2.data ++ g.data, acc.2.poison || g.poison, acc.2.refused || g.refused⟩)) acc).1.MemInv := by
    intro q
    induction q with
    | nil => intro acc ha; exact ha
    | cons x t ih => intro acc ha; simp only [List.foldl_cons]; exact ih _ (ha.devRead _ _ _)
  exact this _ _ h

/-! ### Memory that is cleared or lost -/

theorem Dev.MemInv.cmemZero {d : Dev} (h : d.MemInv) (c : Nat) : (d.cmemZero c).MemInv := ⟨Memory.wf_filter h.1 _, h.2⟩

theorem Dev.MemInv.hbmLost {d : Dev} (h : d.MemInv) : d.hbmLost.MemInv := ⟨Memory.wf_filter h.1 _, h.2.1, by intro p hp; cases hp⟩

theorem Dev.MemInv.outside {d : Dev} (h : d.MemInv) : d.outside.MemInv := ⟨rfl, h.2.1, by intro p hp; cases hp⟩

theorem Dev.MemInv.coldReset {d : Dev} (h : d.MemInv) (why : Nat) : (d.coldReset why).MemInv := h.outside

/-- Memory after reset is in its canonical form. -/
theorem State.reset_memInv : State.reset.toDev.MemInv := ⟨rfl, rfl, by intro p hp; cases hp⟩

end Sys2Proof.Machine
end

