-- ==== Sys2Proof/Laws/PerInstr.lean ====
section
/-! SUPPORT. Laws per command, about the command as syntax. -/

namespace Sys2Proof.Machine

/-- Every slot of the word is as wide as R145 draws it. -/
def StreamWord.sized : StreamWord → Prop
  | .x w => w.m < 2 ^ 128 ∧ w.v < 2 ^ 64 ∧ w.s < 2 ^ 40 ∧ w.y < 2 ^ 24
  | .a w => w.l < 2 ^ 64 ∧ w.t < 2 ^ 64 ∧ w.s < 2 ^ 40 ∧ w.y < 2 ^ 24

theorem MRest.word_sized (w : MRest) (op : BitVec 4) (m : BitVec 124) : (StreamWord.x (w.word op m)).sized :=
  ⟨BitVec.isLt _, BitVec.isLt _, BitVec.isLt _, BitVec.isLt _⟩

theorem VRest.word_sized (w : VRest) (op : BitVec 6) (v : BitVec 58) : (StreamWord.x (w.word op v)).sized :=
  ⟨BitVec.isLt _, BitVec.isLt _, BitVec.isLt _, BitVec.isLt _⟩

theorem LRest.loadWord_sized (w : LRest) (op : BitVec 4) (l : BitVec 60) : (StreamWord.a (w.loadWord op l)).sized :=
  ⟨BitVec.isLt _, BitVec.isLt _, BitVec.isLt _, BitVec.isLt _⟩

theorem LRest.storeWord_sized (w : LRest) (op : BitVec 4) (t : BitVec 60) : (StreamWord.a (w.storeWord op t)).sized :=
  ⟨BitVec.isLt _, BitVec.isLt _, BitVec.isLt _, BitVec.isLt _⟩

theorem SRest.whole_sized (w : SRest) (op : BitVec 4) (s : BitVec 36) : (w.whole op s).sized := by
  cases w <;> exact ⟨BitVec.isLt _, BitVec.isLt _, BitVec.isLt _, BitVec.isLt _⟩

theorem YRest.whole_sized (w : YRest) (op : BitVec 4) (y : BitVec 20) : (w.whole op y).sized := by
  cases w <;> exact ⟨BitVec.isLt _, BitVec.isLt _, BitVec.isLt _, BitVec.isLt _⟩

end Sys2Proof.Machine

namespace Sys2Proof.Laws.Slots

open Sys2Proof.Machine

/-- The word that a stream-word command issues has slots of the widths of R145. -/
def Statement (i : Instr) : Prop := ∀ c w, i.word = some (c, w) → w.sized

/-- A command that issues a sized word. -/
theorem of_some {i : Instr} {c : CoreNo} {w : StreamWord} (h : i.word = some (c, w)) (hw : w.sized) : Statement i := by
  intro a b hab; rw [h] at hab; cases hab; exact hw

/-- A command that issues no word. -/
theorem of_none {i : Instr} (h : i.word = none) : Statement i := by
  intro a b hab; rw [h] at hab; cases hab

theorem regWrite (a : BitVec 26) (n : Fin 9) (v : BitVec 64) (ep : Bool) : Statement (.regWrite a n v ep) := of_none rfl
theorem cfgCommit (page : PageNo) (e : BitVec 16) : Statement (.cfgCommit page e) := of_none rfl
theorem cfgCommitDisarm (page : PageNo) : Statement (.cfgCommitDisarm page) := of_none rfl
theorem coreEpochApply (c : CoreNo) (e : BitVec 16) : Statement (.coreEpochApply c e) := of_none rfl
theorem rstEpochReq (all : Bool) (job : JobNo) (e : BitVec 16) : Statement (.rstEpochReq all job e) := of_none rfl
theorem deviceEpochApply : Statement .deviceEpochApply := of_none rfl
theorem coreFenceApply : Statement .coreFenceApply := of_none rfl
theorem coreFenceRequest (c : CoreNo) : Statement (.coreFenceRequest c) := of_none rfl
theorem meshPacketDeliver (c : CoreNo) (job : Option JobNo) (op : MeshOp) (e : MeshErr) : Statement (.meshPacketDeliver c job op e) := of_none rfl
theorem reducePacketArrive (c : CoreNo) (i : Fin 16) (port : Fin 5) (src : CoreNo) (p : RedIn) : Statement (.reducePacketArrive c i port src p) := of_none rfl
theorem reduceChunkCombine (c : CoreNo) (i : Fin 16) : Statement (.reduceChunkCombine c i) := of_none rfl
theorem mrun (c : CoreNo) (m : BitVec 124) (w : MRest) : Statement (.mrun c m w) := of_some rfl (MRest.word_sized _ _ _)
theorem opEdgeEnter (c : CoreNo) (p : PlaneNo) : Statement (.opEdgeEnter c p) := of_none rfl
theorem scaleBlockTake (c : CoreNo) (p : PlaneNo) : Statement (.scaleBlockTake c p) := of_none rfl
theorem groupInject (c : CoreNo) (p : PlaneNo) : Statement (.groupInject c p) := of_none rfl
theorem groupBoundary (c : CoreNo) (p : PlaneNo) (cells : List HwErr) (lane : List HwErr) : Statement (.groupBoundary c p cells lane) := of_none rfl
theorem decisionOpen (c : CoreNo) (p : PlaneNo) : Statement (.decisionOpen c p) := of_none rfl
theorem slotParityError (c : CoreNo) (p : SubPlane) (slot : Fin 8) (copy : Bool) (r : Fin 96) (j : Fin 64) : Statement (.slotParityError c p slot copy r j) := of_none rfl
theorem opRetire (c : CoreNo) (p : PlaneNo) : Statement (.opRetire c p) := of_none rfl
theorem planePause (c : CoreNo) (p : PlaneNo) : Statement (.planePause c p) := of_none rfl
theorem puFenceApply (c : CoreNo) (p : SubPlane) : Statement (.puFenceApply c p) := of_none rfl
theorem drain (c : CoreNo) (m : BitVec 124) (w : MRest) : Statement (.drain c m w) := of_some rfl (MRest.word_sized _ _ _)
theorem drainStart (c : CoreNo) : Statement (.drainStart c) := of_none rfl
theorem drainRow (c : CoreNo) : Statement (.drainRow c) := of_none rfl
theorem tload (c : CoreNo) (l : BitVec 60) (w : LRest) : Statement (.tload c l w) := of_some rfl (LRest.loadWord_sized _ _ _)
theorem tableLoadDone (c : CoreNo) : Statement (.tableLoadDone c) := of_none rfl
theorem csld (c : CoreNo) (l : BitVec 60) (w : LRest) : Statement (.csld c l w) := of_some rfl (LRest.loadWord_sized _ _ _)
theorem bankWriteApply (c : CoreNo) (plane : Fin 2) (bank : Fin 4) : Statement (.bankWriteApply c plane bank) := of_none rfl
theorem agset (c : CoreNo) (inStore : Bool) (x : BitVec 60) (w : LRest) : Statement (.agset c inStore x w) := by cases inStore <;> exact of_some rfl ⟨BitVec.isLt _, BitVec.isLt _, BitVec.isLt _, BitVec.isLt _⟩
theorem ldq (c : CoreNo) (l : BitVec 60) (w : LRest) : Statement (.ldq c l w) := of_some rfl (LRest.loadWord_sized _ _ _)
theorem stq (c : CoreNo) (t : BitVec 60) (w : LRest) : Statement (.stq c t w) := of_some rfl (LRest.storeWord_sized _ _ _)
theorem loadEntryPush (c : CoreNo) (q : Fin 4) : Statement (.loadEntryPush c q) := of_none rfl
theorem storeBlockWrite (c : CoreNo) (sq : Fin 2) : Statement (.storeBlockWrite c sq) := of_none rfl
theorem storeWriteTimeout (c : CoreNo) : Statement (.storeWriteTimeout c) := of_none rfl
theorem mnop (c : CoreNo) (m : BitVec 124) (w : MRest) : Statement (.mnop c m w) := of_some rfl (MRest.word_sized _ _ _)
theorem vnop (c : CoreNo) (v : BitVec 58) (w : VRest) : Statement (.vnop c v w) := of_some rfl (VRest.word_sized _ _ _)
theorem vadd (c : CoreNo) (v : BitVec 58) (w : VRest) : Statement (.vadd c v w) := of_some rfl (VRest.word_sized _ _ _)
theorem vsub (c : CoreNo) (v : BitVec 58) (w : VRest) : Statement (.vsub c v w) := of_some rfl (VRest.word_sized _ _ _)
theorem vmul (c : CoreNo) (v : BitVec 58) (w : VRest) : Statement (.vmul c v w) := of_some rfl (VRest.word_sized _ _ _)
theorem vfma (c : CoreNo) (v : BitVec 58) (w : VRest) : Statement (.vfma c v w) := of_some rfl (VRest.word_sized _ _ _)
theorem vmin (c : CoreNo) (v : BitVec 58) (w : VRest) : Statement (.vmin c v w) := of_some rfl (VRest.word_sized _ _ _)
theorem vmax (c : CoreNo) (v : BitVec 58) (w : VRest) : Statement (.vmax c v w) := of_some rfl (VRest.word_sized _ _ _)
theorem vabs (c : CoreNo) (v : BitVec 58) (w : VRest) : Statement (.vabs c v w) := of_some rfl (VRest.word_sized _ _ _)
theorem vneg (c : CoreNo) (v : BitVec 58) (w : VRest) : Statement (.vneg c v w) := of_some rfl (VRest.word_sized _ _ _)
theorem vdiv (c : CoreNo) (v : BitVec 58) (w : VRest) : Statement (.vdiv c v w) := of_some rfl (VRest.word_sized _ _ _)
theorem vsqrt (c : CoreNo) (v : BitVec 58) (w : VRest) : Statement (.vsqrt c v w) := of_some rfl (VRest.word_sized _ _ _)
theorem vrsq (c : CoreNo) (v : BitVec 58) (w : VRest) : Statement (.vrsq c v w) := of_some rfl (VRest.word_sized _ _ _)
theorem vcmp (c : CoreNo) (v : BitVec 58) (w : VRest) : Statement (.vcmp c v w) := of_some rfl (VRest.word_sized _ _ _)
theorem vsel (c : CoreNo) (v : BitVec 58) (w : VRest) : Statement (.vsel c v w) := of_some rfl (VRest.word_sized _ _ _)
theorem vand (c : CoreNo) (v : BitVec 58) (w : VRest) : Statement (.vand c v w) := of_some rfl (VRest.word_sized _ _ _)
theorem vor (c : CoreNo) (v : BitVec 58) (w : VRest) : Statement (.vor c v w) := of_some rfl (VRest.word_sized _ _ _)
theorem vxor (c : CoreNo) (v : BitVec 58) (w : VRest) : Statement (.vxor c v w) := of_some rfl (VRest.word_sized _ _ _)
theorem vpopc (c : CoreNo) (v : BitVec 58) (w : VRest) : Statement (.vpopc c v w) := of_some rfl (VRest.word_sized _ _ _)
theorem vcvt (c : CoreNo) (v : BitVec 58) (w : VRest) : Statement (.vcvt c v w) := of_some rfl (VRest.word_sized _ _ _)
theorem vred (c : CoreNo) (v : BitVec 58) (w : VRest) : Statement (.vred c v w) := of_some rfl (VRest.word_sized _ _ _)
theorem vmovi (c : CoreNo) (v : BitVec 58) (w : VRest) : Statement (.vmovi c v w) := of_some rfl (VRest.word_sized _ _ _)
theorem vmov (c : CoreNo) (v : BitVec 58) (w : VRest) : Statement (.vmov c v w) := of_some rfl (VRest.word_sized _ _ _)
theorem vldq (c : CoreNo) (v : BitVec 58) (w : VRest) : Statement (.vldq c v w) := of_some rfl (VRest.word_sized _ _ _)
theorem vstq (c : CoreNo) (v : BitVec 58) (w : VRest) : Statement (.vstq c v w) := of_some rfl (VRest.word_sized _ _ _)
theorem vrds (c : CoreNo) (v : BitVec 58) (w : VRest) : Statement (.vrds c v w) := of_some rfl (VRest.word_sized _ _ _)
theorem vregWriteback (c : CoreNo) : Statement (.vregWriteback c) := of_none rfl
theorem cnop (c : CoreNo) (x : BitVec 36) (w : SRest) : Statement (.cnop c x w) := of_some rfl (SRest.whole_sized _ _ _)
theorem cset (c : CoreNo) (x : BitVec 36) (w : SRest) : Statement (.cset c x w) := of_some rfl (SRest.whole_sized _ _ _)
theorem cadd (c : CoreNo) (x : BitVec 36) (w : SRest) : Statement (.cadd c x w) := of_some rfl (SRest.whole_sized _ _ _)
theorem kcmp (c : CoreNo) (x : BitVec 36) (w : SRest) : Statement (.kcmp c x w) := of_some rfl (SRest.whole_sized _ _ _)
theorem kcmpc (c : CoreNo) (x : BitVec 36) (w : SRest) : Statement (.kcmpc c x w) := of_some rfl (SRest.whole_sized _ _ _)
theorem brk (c : CoreNo) (x : BitVec 36) (w : SRest) : Statement (.brk c x w) := of_some rfl (SRest.whole_sized _ _ _)
theorem jmp (c : CoreNo) (x : BitVec 36) (w : SRest) : Statement (.jmp c x w) := of_some rfl (SRest.whole_sized _ _ _)
theorem loop (c : CoreNo) (x : BitVec 36) (w : SRest) : Statement (.loop c x w) := of_some rfl (SRest.whole_sized _ _ _)
theorem halt (c : CoreNo) (x : BitVec 36) (w : SRest) : Statement (.halt c x w) := of_some rfl (SRest.whole_sized _ _ _)
theorem streamHalted (c : CoreNo) (exec : Bool) : Statement (.streamHalted c exec) := of_none rfl
theorem ynop (c : CoreNo) (y : BitVec 20) (w : YRest) : Statement (.ynop c y w) := of_some rfl (YRest.whole_sized _ _ _)
theorem setf (c : CoreNo) (y : BitVec 20) (w : YRest) : Statement (.setf c y w) := of_some rfl (YRest.whole_sized _ _ _)
theorem waitf (c : CoreNo) (y : BitVec 20) (w : YRest) : Statement (.waitf c y w) := of_some rfl (YRest.whole_sized _ _ _)
theorem epoch (c : CoreNo) (y : BitVec 20) (w : YRest) : Statement (.epoch c y w) := of_some rfl (YRest.whole_sized _ _ _)
theorem lnop (c : CoreNo) (l : BitVec 60) (w : LRest) : Statement (.lnop c l w) := of_some rfl (LRest.loadWord_sized _ _ _)
theorem snop (c : CoreNo) (t : BitVec 60) (w : LRest) : Statement (.snop c t w) := of_some rfl (LRest.storeWord_sized _ _ _)
theorem strmFlagSet (c : CoreNo) (m : BitVec 16) : Statement (.strmFlagSet c m) := of_none rfl
theorem strmFlagClr (c : CoreNo) (m : BitVec 16) : Statement (.strmFlagClr c m) := of_none rfl
theorem strmStart (c : CoreNo) (x : Bool) (a : Bool) : Statement (.strmStart c x a) := of_none rfl
theorem badgerReport (c : CoreNo) : Statement (.badgerReport c) := of_none rfl
theorem ctxSave (c : CoreNo) (cmem : Bool) : Statement (.ctxSave c cmem) := of_none rfl
theorem ctxSaveDone (c : CoreNo) : Statement (.ctxSaveDone c) := of_none rfl
theorem ctxRestore (c : CoreNo) (cmem : Bool) : Statement (.ctxRestore c cmem) := of_none rfl
theorem ctxRestoreDone (c : CoreNo) : Statement (.ctxRestoreDone c) := of_none rfl
theorem cmemScrubStep (c : CoreNo) : Statement (.cmemScrubStep c) := of_none rfl
theorem cmemClearDone (c : CoreNo) : Statement (.cmemClearDone c) := of_none rfl
theorem cmemQuantum (c : CoreNo) : Statement (.cmemQuantum c) := of_none rfl
theorem sliceAccess (die : Fin 2) (op : SliceOp) (ce : Fin 17) (ue : Bool) : Statement (.sliceAccess die op ce ue) := of_none rfl
theorem atomic (die : Fin 2) (code : BitVec 5) (pa : PhysAddr) (a : BitVec 64) (cmp : BitVec 64) : Statement (.atomic die code pa a cmp) := of_none rfl
theorem postedReduction (die : Fin 2) (op : Fin 8) (pa : BitVec 41) (data : List Byte) (poison : Bool) : Statement (.postedReduction die op pa data poison) := of_none rfl
theorem hbmScrubStep (i : StackNo) : Statement (.hbmScrubStep i) := of_none rfl
theorem hmcCalWindow (i : StackNo) (pass : Bool) (temp : BitVec 8) (odecc : BitVec 32) : Statement (.hmcCalWindow i pass temp odecc) := of_none rfl
theorem hmcCalWindowEnd (i : StackNo) : Statement (.hmcCalWindowEnd i) := of_none rfl
theorem hmcCalDefer (i : StackNo) : Statement (.hmcCalDefer i) := of_none rfl
theorem dmaChDoorbell (ch : ChanNo) : Statement (.dmaChDoorbell ch) := of_none rfl
theorem dmaPollExpire (ch : ChanNo) : Statement (.dmaPollExpire ch) := of_none rfl
theorem dmaDescFetch (ch : ChanNo) (fail : Bool) : Statement (.dmaDescFetch ch fail) := of_none rfl
theorem dmaDataMove (ch : ChanNo) (j : Fin 4) : Statement (.dmaDataMove ch j) := of_none rfl
theorem dmaXferFail (ch : ChanNo) (j : Fin 4) (write : Bool) : Statement (.dmaXferFail ch j write) := of_none rfl
theorem dmaWriteTimeout (ch : ChanNo) (j : Fin 4) : Statement (.dmaWriteTimeout ch j) := of_none rfl
theorem dmaWriteback (ch : ChanNo) : Statement (.dmaWriteback ch) := of_none rfl
theorem dmaCoalTimeout (ch : ChanNo) : Statement (.dmaCoalTimeout ch) := of_none rfl
theorem dmaChEn (ch : ChanNo) (en : Bool) : Statement (.dmaChEn ch en) := of_none rfl
theorem dmaChDisable (ch : ChanNo) (dis : Bool) : Statement (.dmaChDisable ch dis) := of_none rfl
theorem putReceive (p : PortNo) (h : BitVec 256) (data : List Byte) (e : FecErrs) : Statement (.putReceive p h data e) := of_none rfl
theorem getReceive (p : PortNo) (h : BitVec 256) (e : FecErrs) : Statement (.getReceive p h e) := of_none rfl
theorem getRspReceive (p : PortNo) (h : BitVec 256) (data : List Byte) (e : FecErrs) : Statement (.getRspReceive p h data e) := of_none rfl
theorem amoReceive (p : PortNo) (h : BitVec 256) (data : List Byte) (e : FecErrs) : Statement (.amoReceive p h data e) := of_none rfl
theorem amoRspReceive (p : PortNo) (h : BitVec 256) (data : List Byte) (e : FecErrs) : Statement (.amoRspReceive p h data e) := of_none rfl
theorem ackReceive (p : PortNo) (h : BitVec 256) (e : FecErrs) : Statement (.ackReceive p h e) := of_none rfl
theorem fwdPacket (p : PortNo) (h : BitVec 256) (data : List Byte) (mesh : Bool) (e : FecErrs) : Statement (.fwdPacket p h data mesh e) := of_none rfl
theorem colUpReceive (p : PortNo) (h : BitVec 256) (data : List Byte) (e : FecErrs) : Statement (.colUpReceive p h data e) := of_none rfl
theorem colChunkCombine (id : BitVec 8) (off : BitVec 32) : Statement (.colChunkCombine id off) := of_none rfl
theorem colDnReceive (p : PortNo) (h : BitVec 256) (data : List Byte) (e : FecErrs) : Statement (.colDnReceive p h data e) := of_none rfl
theorem mgmtReceive (p : PortNo) (h : BitVec 256) (data : List Byte) (self : Option Word) (e : FecErrs) : Statement (.mgmtReceive p h data self e) := of_none rfl
theorem linkCreditSend (p : PortNo) : Statement (.linkCreditSend p) := of_none rfl
theorem calNextReceive (p : PortNo) (h : BitVec 256) (e : FecErrs) : Statement (.calNextReceive p h e) := of_none rfl
theorem calDeferReceive (p : PortNo) (h : BitVec 256) (e : FecErrs) : Statement (.calDeferReceive p h e) := of_none rfl
theorem calStartReceive (p : PortNo) (h : BitVec 256) (e : FecErrs) : Statement (.calStartReceive p h e) := of_none rfl
theorem calEndReceive (p : PortNo) (h : BitVec 256) (e : FecErrs) : Statement (.calEndReceive p h e) := of_none rfl
theorem portRetrain (p : PortNo) : Statement (.portRetrain p) := of_none rfl
theorem portHoldDown (p : PortNo) : Statement (.portHoldDown p) := of_none rfl
theorem portSignalLoss (p : PortNo) : Statement (.portSignalLoss p) := of_none rfl
theorem portSignalReturn (p : PortNo) : Statement (.portSignalReturn p) := of_none rfl
theorem fabSqDoorbell (n : JobNo) : Statement (.fabSqDoorbell n) := of_none rfl
theorem fabSqPollExpire (n : JobNo) : Statement (.fabSqPollExpire n) := of_none rfl
theorem fabSendPut (who : Option JobNo) : Statement (.fabSendPut who) := of_none rfl
theorem fabSendGet (who : Option JobNo) : Statement (.fabSendGet who) := of_none rfl
theorem fabSendAmo (n : JobNo) : Statement (.fabSendAmo n) := of_none rfl
theorem fabSendCol (n : JobNo) (gate : Bool) : Statement (.fabSendCol n gate) := of_none rfl
theorem fabPacketSend (p : PortNo) (slot : Bool) : Statement (.fabPacketSend p slot) := of_none rfl
theorem fabCqCoalTimeout (n : JobNo) : Statement (.fabCqCoalTimeout n) := of_none rfl
theorem fabTagTimeout (tag : BitVec 16) : Statement (.fabTagTimeout tag) := of_none rfl
theorem fabMsgRelease (n : JobNo) (slot : Fin 16) (rank : BitVec 16) : Statement (.fabMsgRelease n slot rank) := of_none rfl
theorem fabSqDisable (n : JobNo) : Statement (.fabSqDisable n) := of_none rfl
theorem fabSelfWrite (v : Word) : Statement (.fabSelfWrite v) := of_none rfl
theorem slpCalWindow (p : PortNo) : Statement (.slpCalWindow p) := of_none rfl
theorem slpCalWindowEnd (p : PortNo) : Statement (.slpCalWindowEnd p) := of_none rfl
theorem slpCalDefer (p : PortNo) : Statement (.slpCalDefer p) := of_none rfl
theorem stepArm (n : JobNo) : Statement (.stepArm n) := of_none rfl
theorem stashAssignDone (n : JobNo) : Statement (.stashAssignDone n) := of_none rfl
theorem gateTimeout (n : JobNo) : Statement (.gateTimeout n) := of_none rfl
theorem owlJobStop (n : JobNo) (code : BitVec 8) : Statement (.owlJobStop n code) := of_none rfl
theorem owlForceFence : Statement .owlForceFence := of_none rfl
theorem owlClrSpare : Statement .owlClrSpare := of_none rfl
theorem owlForceSnap : Statement .owlForceSnap := of_none rfl
theorem owlInterval : Statement .owlInterval := of_none rfl
theorem owlLogRestart (i : Fin 3) (v : Word) : Statement (.owlLogRestart i v) := of_none rfl
theorem sqrFirstTouchDone (pg : BitVec 25) : Statement (.sqrFirstTouchDone pg) := of_none rfl
theorem sqrSweepSend (pg : BitVec 25) : Statement (.sqrSweepSend pg) := of_none rfl
theorem sqrBudgetQuantum : Statement .sqrBudgetQuantum := of_none rfl
theorem sqrMergeDone (n : JobNo) : Statement (.sqrMergeDone n) := of_none rfl
theorem sqrStart (n : JobNo) : Statement (.sqrStart n) := of_none rfl
theorem sqrRollback (n : JobNo) : Statement (.sqrRollback n) := of_none rfl
theorem sqrPrepare (n : JobNo) : Statement (.sqrPrepare n) := of_none rfl
theorem sqrPush (n : JobNo) : Statement (.sqrPush n) := of_none rfl
theorem sqrSend (n : JobNo) : Statement (.sqrSend n) := of_none rfl
theorem sqrReparity (n : JobNo) : Statement (.sqrReparity n) := of_none rfl
theorem sqrPhaseDone (n : JobNo) : Statement (.sqrPhaseDone n) := of_none rfl
theorem sqDoorbell (q : QueueNo) (v : Word) (ep : Bool) : Statement (.sqDoorbell q v ep) := of_none rfl
theorem cmdFetch (q : QueueNo) (e : HostEnd) : Statement (.cmdFetch q e) := of_none rfl
theorem cmdHeldAccept (sid : StreamNo) : Statement (.cmdHeldAccept sid) := of_none rfl
theorem cmdGapTimeout (sid : StreamNo) (seq : BitVec 32) : Statement (.cmdGapTimeout sid seq) := of_none rfl
theorem nop (q : QueueNo) : Statement (.nop q) := of_none rfl
theorem run (q : QueueNo) : Statement (.run q) := of_none rfl
theorem wait (q : QueueNo) : Statement (.wait q) := of_none rfl
theorem suspend (q : QueueNo) : Statement (.suspend q) := of_none rfl
theorem resume (q : QueueNo) : Statement (.resume q) := of_none rfl
theorem cancel (q : QueueNo) : Statement (.cancel q) := of_none rfl
theorem release (q : QueueNo) : Statement (.release q) := of_none rfl
theorem controlCmdComplete (sid : StreamNo) : Statement (.controlCmdComplete sid) := of_none rfl
theorem runStart (sid : StreamNo) : Statement (.runStart sid) := of_none rfl
theorem runDone (sid : StreamNo) : Statement (.runDone sid) := of_none rfl
theorem runSuspendDone (sid : StreamNo) : Statement (.runSuspendDone sid) := of_none rfl
theorem runCancelDone (sid : StreamNo) : Statement (.runCancelDone sid) := of_none rfl
theorem journalScan : Statement .journalScan := of_none rfl
theorem cmdJrnlEnable (rcv : Bool) : Statement (.cmdJrnlEnable rcv) := of_none rfl
theorem jrnlZeroDone : Statement .jrnlZeroDone := of_none rfl
theorem cmdPause (pause : Bool) : Statement (.cmdPause pause) := of_none rfl
theorem jrnlCopyDone : Statement .jrnlCopyDone := of_none rfl
theorem cmdStreamReset (sid : StreamNo) : Statement (.cmdStreamReset sid) := of_none rfl
theorem jobCoresWrite (n : JobNo) (m : Fin 9) (v : Word) : Statement (.jobCoresWrite n m v) := of_none rfl
theorem sqEnWrite (q : QueueNo) (en : Bool) : Statement (.sqEnWrite q en) := of_none rfl
theorem calSlot (e : JobNo) : Statement (.calSlot e) := of_none rfl
theorem calDeadline (e : JobNo) : Statement (.calDeadline e) := of_none rfl
theorem flr : Statement .flr := of_none rfl
theorem bar2Read (off : BitVec 41) (n : BitVec 13) : Statement (.bar2Read off n) := of_none rfl
theorem bar2Write (off : BitVec 41) (data : List Byte) (ep : Bool) : Statement (.bar2Write off data ep) := of_none rfl
theorem bar2Atomic (off : BitVec 41) (op : AtomicOp) (sz : AtomicSize) (a : BitVec 128) (cmp : BitVec 128) : Statement (.bar2Atomic off op sz a cmp) := of_none rfl
theorem pcieCplTimeout (r : HostReader) : Statement (.pcieCplTimeout r) := of_none rfl
theorem aonTick : Statement .aonTick := of_none rfl
theorem aonTickRead : Statement .aonTickRead := of_none rfl
theorem wakeEvent (cause : Fin 8) : Statement (.wakeEvent cause) := of_none rfl
theorem aonWakeTimer : Statement .aonWakeTimer := of_none rfl
theorem stateExitDone (bad : List StackNo) (lanes : List (BitVec 4)) : Statement (.stateExitDone bad lanes) := of_none rfl
theorem leaveBudgetRecompute (watts : Nat) : Statement (.leaveBudgetRecompute watts) := of_none rfl
theorem leaveGrant : Statement .leaveGrant := of_none rfl
theorem leaveTimeout (c : CoreNo) (p : PlaneNo) : Statement (.leaveTimeout c p) := of_none rfl
theorem leaveReturn (c : CoreNo) (p : PlaneNo) : Statement (.leaveReturn c p) := of_none rfl
theorem capClockStep (avg : Nat) (ack : Bool) : Statement (.capClockStep avg ack) := of_none rfl
theorem paceStep (avg : Nat) : Statement (.paceStep avg) := of_none rfl
theorem tempLimit (t : Nat) (ack : Bool) : Statement (.tempLimit t ack) := of_none rfl
theorem thermCrit (t : Nat) : Statement (.thermCrit t) := of_none rfl
theorem vddDroop : Statement .vddDroop := of_none rfl
theorem pllLockLoss (p : Pll) : Statement (.pllLockLoss p) := of_none rfl
theorem railFault (rail : Rail) (us : Nat) : Statement (.railFault rail us) := of_none rfl
theorem coldReset (perst : Bool) : Statement (.coldReset perst) := of_none rfl
theorem warmReset (key : Word) : Statement (.warmReset key) := of_none rfl
theorem pcieHotReset : Statement .pcieHotReset := of_none rfl
theorem computeReset (key : Word) : Statement (.computeReset key) := of_none rfl
theorem computeResetDone : Statement .computeResetDone := of_none rfl
theorem rstJob (n : JobNo) : Statement (.rstJob n) := of_none rfl
theorem jobResetDone (n : JobNo) : Statement (.jobResetDone n) := of_none rfl
theorem rstCore (c : CoreNo) : Statement (.rstCore c) := of_none rfl
theorem coreResetDone (c : CoreNo) : Statement (.coreResetDone c) := of_none rfl
theorem bootFuse (ok : Bool) (trng : Bool) : Statement (.bootFuse ok trng) := of_none rfl
theorem bootManifest (flash : Bool) (bad : List (Fin 256)) (x : PcieUp) : Statement (.bootManifest flash bad x) := of_none rfl
theorem bootMpLoad (flash : Bool) : Statement (.bootMpLoad flash) := of_none rfl
theorem bootTrain (x : TrainFacts) : Statement (.bootTrain x) := of_none rfl
theorem bootCoreLoad (miss : List (CoreNo × Nat)) : Statement (.bootCoreLoad miss) := of_none rfl
theorem chunkResendRound (c : CoreNo) (bad : List Nat) : Statement (.chunkResendRound c bad) := of_none rfl
theorem bootQualify (tests : List LaneTest) : Statement (.bootQualify tests) := of_none rfl
theorem bootPeer (p : PortNo) (x : PeerId) : Statement (.bootPeer p x) := of_none rfl
theorem bootReady : Statement .bootReady := of_none rfl
theorem stageChunk (i : Fin 1024) : Statement (.stageChunk i) := of_none rfl
theorem stageHbm : Statement .stageHbm := of_none rfl
theorem verify : Statement .verify := of_none rfl
theorem writeFlash : Statement .writeFlash := of_none rfl
theorem flashWriteDone (ok : Bool) : Statement (.flashWriteDone ok) := of_none rfl
theorem activate : Statement .activate := of_none rfl
theorem coreImageReload (c : CoreNo) (miss : List Nat) : Statement (.coreImageReload c miss) := of_none rfl
theorem forceRecovery : Statement .forceRecovery := of_none rfl
theorem writeIdcache : Statement .writeIdcache := of_none rfl
theorem abort : Statement .abort := of_none rfl
theorem quote : Statement .quote := of_none rfl
theorem extend (m : Fin 16) : Statement (.extend m) := of_none rfl
theorem debugChallenge : Statement .debugChallenge := of_none rfl
theorem debugUnlock : Statement .debugUnlock := of_none rfl
theorem debugLock : Statement .debugLock := of_none rfl
theorem debugExpire : Statement .debugExpire := of_none rfl
theorem setOwner : Statement .setOwner := of_none rfl
theorem advanceSvn (v : BitVec 16) : Statement (.advanceSvn v) := of_none rfl
theorem refclkLoss (slp : Bool) : Statement (.refclkLoss slp) := of_none rfl
theorem refclkReturn (slp : Bool) (drift : Bool) : Statement (.refclkReturn slp drift) := of_none rfl
theorem railRecovery (us : Nat) (perst : Bool) : Statement (.railRecovery us perst) := of_none rfl
theorem portRetrainDone (p : PortNo) (lanes : BitVec 4) : Statement (.portRetrainDone p lanes) := of_none rfl
theorem linkCreditReceive (p : PortNo) (h : BitVec 256) (e : FecErrs) : Statement (.linkCreditReceive p h e) := of_none rfl
theorem clockStepUp (avg : Nat) (t : Nat) (ack : Bool) : Statement (.clockStepUp avg t ack) := of_none rfl
theorem thermCritRelease (t : Nat) : Statement (.thermCritRelease t) := of_none rfl

end Sys2Proof.Laws.Slots
end

