-- ==== Sys2Proof/Laws/Vector.lean ====
section
/-! SUPPORT. Laws of the vector slot: vector registers, and what an issued instruction leaves in them. -/

namespace Sys2Proof.Machine

/-- A read after a write that is due finds what it wrote; every other read finds what it found. -/
theorem Core.vread_vwrite (k : Core) (r : Nat) (v : VReg) (due x n : Nat) :
    (k.vwrite r v due).vread x n = if x = r ∧ due ≤ n then v else k.vread x n := by
  unfold Core.vread Core.vwrite
  simp only [List.filter_append, List.filter_filter]
  by_cases h : x = r ∧ due ≤ n
  · obtain ⟨rfl, hd⟩ := h
    simp [hd]
  · simp only [h, if_false]
    have h0 : (List.filter (fun p => p.reg == x && decide (p.due ≤ n)) [(⟨r, v, due⟩ : VPend)]) = [] := by
      simp; intro hx; rcases Decidable.em (x = r) with hh | hh
      · have : ¬ due ≤ n := fun q => h ⟨hh, q⟩
        omega
      · exact absurd hx.symm hh
    rw [h0, List.append_nil]
    congr 2
    apply List.filter_congr
    intro p _
    rcases Decidable.em (x = r) with hh | hh
    · subst x
      have : ¬ due ≤ n := fun q => h ⟨rfl, q⟩
      by_cases hp : p.due ≤ n
      · have : ¬ due ≤ p.due := by omega
        simp [hp, this]
      · simp [hp]
    · by_cases hp : p.reg = x
      · have : ¬ p.reg = r := fun q => hh (hp.symm.trans q)
        simp [hp, hh]
      · simp [hp]

/-- A read depends on the registers and the writes that are due. -/
theorem Core.vread_congr {k n : Core} (h : k.vpend = n.vpend) (h' : k.vregs = n.vregs) (r m : Nat) : k.vread r m = n.vread r m := by
  unfold Core.vread; rw [h, h']

/-- Flags apart, nothing of the vector unit differs. -/
theorem Core.SameButFlags.regs {k n : Core} (h : k.SameButFlags n) : n.vpend = k.vpend ∧ n.vregs = k.vregs ∧ n.queues = k.queues ∧ n.divNext = k.divNext := by
  obtain ⟨_, _, _, _, _, _, rfl⟩ := h; exact ⟨rfl, rfl, rfl, rfl⟩

/-- The scalar and sync slots leave the vector unit alone. -/
theorem Dev.issued_regs (d : Dev) (c : Nat) (e : Bool) (s y : Nat) :
    ((d.issued c e s y).core c).vpend = (d.core c).vpend ∧ ((d.issued c e s y).core c).vregs = (d.core c).vregs ∧
    ((d.issued c e s y).core c).queues = (d.core c).queues ∧ ((d.issued c e s y).core c).divNext = (d.core c).divNext := by
  obtain ⟨K, g, h, h2, -⟩ := Dev.issued_core d c e s y
  obtain ⟨a, b, q, r⟩ := Core.SameButFlags.regs h
  rw [h2, ← a, ← b, ← q, ← r]
  cases e <;> exact ⟨rfl, rfl, rfl, rfl⟩

/-- The matrix slot leaves the vector unit alone. -/
theorem Dev.matrixEffect_regs (d : Dev) (c m pc : Nat) :
    ((d.matrixEffect c m pc).core c).vpend = (d.core c).vpend ∧ ((d.matrixEffect c m pc).core c).vregs = (d.core c).vregs ∧
    ((d.matrixEffect c m pc).core c).queues = (d.core c).queues ∧ ((d.matrixEffect c m pc).core c).divNext = (d.core c).divNext := by
  unfold Dev.matrixEffect
  split
  · unfold Dev.mrunEffect; rw [Dev.core_onCore_self]; exact ⟨rfl, rfl, rfl, rfl⟩
  · unfold Dev.drainEffect; rw [Dev.core_onCore_self]; exact ⟨rfl, rfl, rfl, rfl⟩
  · exact ⟨rfl, rfl, rfl, rfl⟩

/-- Of the vector unit, an execute word changes what its vector slot changes. -/
theorem XWord.effect_regs (w : XWord) (c : Nat) (d : Dev) :
    let e := (StreamWord.x w).effect c d
    let b := d.vectorEffect c w.v
    (e.core c).vpend = (b.core c).vpend ∧ (e.core c).vregs = (b.core c).vregs ∧
    (e.core c).queues = (b.core c).queues ∧ (e.core c).divNext = (b.core c).divNext := by
  obtain ⟨a1, a2, a3, a4⟩ := Dev.issued_regs ((d.vectorEffect c w.v).matrixEffect c w.m ((d.core c).x.pc)) c true w.s w.y
  obtain ⟨b1, b2, b3, b4⟩ := Dev.matrixEffect_regs (d.vectorEffect c w.v) c w.m ((d.core c).x.pc)
  exact ⟨a1.trans b1, a2.trans b2, a3.trans b3, a4.trans b4⟩

/-- Does a vector slot use the divider? -/
def isDiv (v : Nat) : Bool := [0x09, 0x0A, 0x0B].contains (vOp v)

/-- What the vector slot does to its core where its predicate is true and it uses no queue. -/
theorem Dev.vectorEffect_core (d : Dev) (c v : Nat) (h0 : vOp v ≠ 0) (h1 : vOp v ≠ 0x28) (h2 : vOp v ≠ 0x29) (h3 : vOp v ≠ 0x2A) (hp : d.predTrue c v = true) :
    ((d.vectorEffect c v).core c) =
      ({ (d.core c) with divNext := if isDiv v then d.cycle + 4 else (d.core c).divNext } : Core).vwrite (vD v) (d.vResult c v) (d.cycle + vLatency v) := by
  unfold Dev.vectorEffect
  simp only [h0, h1, h2, if_false]
  by_cases hd : [0x09, 0x0A, 0x0B].contains (vOp v)
  · simp only [hd, if_true, isDiv]
    have e1 : (d.onCore c (fun k => { k with divNext := d.cycle + 4 })).vResult c v = d.vResult c v := by
      unfold Dev.vResult
      simp only [Dev.core_onCore_self]
      split
      · rfl
      · rfl
      · rfl
      · contradiction
      · rfl
    simp [hp, e1]
  · simp only [hd, isDiv]
    simp [hp]

/-- An issued vector instruction whose result is lane by lane. -/
theorem completes_lane_and {i : Instr} {s : State} {c : CoreNo} {op : BitVec 6} {v : BitVec 58} {w : VRest} {f : Word → Word → Word → Word}
    (hw : i.word = some (c, .x (w.word op v))) (hr : VReady op v w c s)
    (hop : vOp (vslot op v) = op.toNat) (h : op.toNat ∉ [0, 0x28, 0x29, 0x2A])
    (hf : ∀ j, j < 64 → (s.toDev.vResult c (vslot op v)).lane j
      = f (((s.core c).vread (vA (vslot op v)) s.cycle).lane j) (((s.core c).vread (vB (vslot op v)) s.cycle).lane j) (((s.core c).vread (vC (vslot op v)) s.cycle).lane j))
    (P : State → Prop) (hP : (isDiv (vslot op v) = true → ((s.onDev ((StreamWord.x (w.word op v)).effect c)).core c).divNext = s.cycle + 4) → P (s.onDev ((StreamWord.x (w.word op v)).effect c))) :
    Completes i s (fun t => LaneResult s t c (vslot op v) f ∧ P t) := by
  apply completes_word hw hr.1
  have hl := Dev.vectorEffect_core s.toDev c (vslot op v) (by rw [hop]; simp_all) (by rw [hop]; simp_all) (by rw [hop]; simp_all) (by rw [hop]; simp_all) hr.2
  obtain ⟨e1, e2, e3, e4⟩ := XWord.effect_regs (w.word op v) c s.toDev
  have key : ∀ x n, ((s.onDev ((StreamWord.x (w.word op v)).effect c)).core c).vread x n =
      if x = vD (vslot op v) ∧ s.cycle + vLatency (vslot op v) ≤ n then s.toDev.vResult c (vslot op v) else (s.core c).vread x n := by
    intro x n
    have e := Core.vread_congr (n := (s.toDev.vectorEffect c (vslot op v)).core c) e1 e2 x n
    rw [hl, Core.vread_vwrite] at e
    exact e
  refine ⟨⟨?_, ?_, ?_⟩, hP ?_⟩
  · intro j hj; rw [key, if_pos ⟨rfl, Nat.le_refl _⟩, hf j hj]
  · intro x n hn; rw [key, if_neg (by omega)]
  · intro x n hx; rw [key, if_neg (fun q => hx q.1)]
  · intro hd
    show (((StreamWord.x (w.word op v)).effect c s.toDev).core c).divNext = _
    rw [e4]
    show ((s.toDev.vectorEffect c (vslot op v)).core c).divNext = _
    rw [hl, hd]; rfl

/-- The opcode of a slot put together. -/
theorem vOp_vslot (op : BitVec 6) (v : BitVec 58) : vOp (vslot op v) = op.toNat := by
  unfold vOp vslot bitsN
  rw [BitVec.toNat_append]
  have h1 := v.isLt; have h2 := op.isLt
  rw [Nat.shiftRight_eq_div_pow, Nat.shiftLeft_eq, Nat.mul_comm, ← Nat.two_pow_add_eq_or_of_lt (by omega)]
  omega

/-- A lane of a register given lane by lane. -/
theorem VReg.lane_map (g : Nat → Word) (b : List Nat) (j : Nat) (h : j < 64) : (VReg.mk ((List.range 64).map g) b).lane j = g j := by
  simp [VReg.lane, h]

/-- The same, with nothing beside. -/
theorem completes_lane {i : Instr} {s : State} {c : CoreNo} {op : BitVec 6} {v : BitVec 58} {w : VRest} {f : Word → Word → Word → Word}
    (hw : i.word = some (c, .x (w.word op v))) (hr : VReady op v w c s) (h : op.toNat ∉ [0, 0x28, 0x29, 0x2A])
    (hf : ∀ j, j < 64 → (s.toDev.vResult c (vslot op v)).lane j
      = f (((s.core c).vread (vA (vslot op v)) s.cycle).lane j) (((s.core c).vread (vB (vslot op v)) s.cycle).lane j) (((s.core c).vread (vC (vslot op v)) s.cycle).lane j)) :
    Completes i s (fun t => LaneResult s t c (vslot op v) f) := by
  obtain ⟨t, h1, h2, -⟩ := completes_lane_and hw hr (vOp_vslot _ _) h hf (fun _ => True) (fun _ => trivial)
  exact ⟨t, h1, h2⟩

/-- The result of an instruction that works lane by lane. -/
theorem Dev.vResult_lane {d : Dev} {c v : Nat} (h : vOp v ∉ [0x18, 0x20, 0x28, 0x2A]) (j : Nat) (hj : j < 64) :
    (d.vResult c v).lane j = vLane v (((d.core c).vread (vA v) d.cycle).lane j) (((d.core c).vread (vB v) d.cycle).lane j) (((d.core c).vread (vC v) d.cycle).lane j) := by
  unfold Dev.vResult
  split <;> first | (simp_all; done) | rw [VReg.lane_map _ _ _ hj]

end Sys2Proof.Machine
end

