-- ==== Sys2Proof/Tests/Slice0.lean ====
section
/-! SUPPORT. Tests: ill-formed commands, witnesses that the hypotheses of the statements can be met, single steps. -/

namespace Sys2Proof.Tests

set_option Elab.async false

open Sys2Proof Sys2Proof.Machine

/-- A state with an empty queue and the device that f makes of the one with nothing listed. -/
def rig (f : Dev → Dev) : State := { toDev := f {}, pending := [] }

/-- Core 0 runs both streams over windows of 100 words. -/
def onCore (f : Core → Core) : State :=
  rig (fun d => ((d.setReg (aStrm 0 0x118) 100).setReg (aStrm 0 0x128) 100).onCore 0
    (fun k => f { k with x := { st := .running }, a := { st := .running } }))

def core0 : State := onCore id

/-- The device from READY on. -/
def booted (f : Dev → Dev) : State := rig (fun d => f (d.setReg (aFwl 0x100) 0x80000000))

def ent (p : Bool) : QEntry := { data := List.replicate 64 0, poison := p }
def wm : MRest := ⟨0, 0, 0⟩
def wv : VRest := ⟨0, 0, 0⟩
def wl : LRest := ⟨0, 0, 0⟩
def sx : SRest := .x 0 0 0
def sa : SRest := .a 0 0 0
def yx : YRest := .x 0 0 0
def ya : YRest := .a 0 0 0
/-- Device 0 of board 0 serves job 5 as rank 0; rank 1 is device 1, over ports 0 to 2, which are up. -/
def netBase (d : Dev) : Dev :=
  ((((d.setReg (aFab 0x100) 0x80000000).setReg (aFabJ 5 0) 0x80000000).setReg (aFabJ 5 4) 2).setReg (aFabRank 1) 0x80010700).onFab
    (fun f => { f with ports := (List.range 3).map (fun p => (p, { up := true, credits := bufFlits })) })

def net (f : Dev → Dev) : State := booted (fun d => f (netBase d))

/-! ## Memory that nothing holds up -/


theorem agree {d : Dev} (h : d.cache = [] ∧ ∀ i, i < 16 → d.reg (aHmc i 0x18) = 0) : d.slicesAgree :=
  ⟨fun p hp => (by rw [h.1] at hp; cases hp), h.2⟩

theorem block {d : Dev} {pa : Nat} (h : d.errs = [] ∧ d.cache = [] ∧ (∀ i, i < 16 → d.reg (aHmc i 0x18) = 0))
    (h2 : pa < hbmEnd ∧ (d.stack (keyStack (d.hbmKey pa))).held = false) : d.soundBlock pa :=
  ⟨h2.1, .inl h2.2, fun b _ => by rw [h.1]; rfl, agree h.2⟩

/-- With no errors in storage, an access of a block that nothing holds up is served. -/
theorem serves {d : Dev} {pa : Nat} (h : d.errs = [] ∧ d.cache = [] ∧ (∀ i, i < 16 → d.reg (aHmc i 0x18) = 0) ∧ pa < hbmEnd
    ∧ (d.stack (keyStack (d.hbmKey pa))).held = false ∧ d.hbmWaits pa true = false ∧ d.sqrProtects pa = none) : d.servesBlock pa :=
  ⟨block ⟨h.1, h.2.1, h.2.2.1⟩ ⟨h.2.2.2.1, h.2.2.2.2.1⟩, h.2.2.2.2.2⟩

theorem sound {d : Dev} {pa n : Nat} (h : d.errs = [] ∧ d.stackT = [] ∧ d.cache = [] ∧ (∀ i, i < 16 → d.reg (aHmc i 0x18) = 0) ∧ pa + n ≤ hbmEnd) :
    d.soundRange pa n := by
  obtain ⟨h1, h2, h3, h4, h5⟩ := h
  intro i hi
  have hh : (d.stack (keyStack (d.hbmKey (pa + i)))).held = false := by rw [Dev.stack, h2]; rfl
  exact ⟨block ⟨h1, h3, h4⟩ ⟨by omega, hh⟩, hh⟩

theorem clean {d : Dev} (h : d.poison = [] ∧ d.cache = []) (a : Nat) : d.peekPoison a = false := by
  rw [Dev.peekPoison, h.1]
  have : ∀ k, (d.line k).has k = false := by intro k; rw [Dev.line, h.2]; simp only [CLine.has]; split <;> rfl
  simp [this]

/-- A device that nothing holds up serves every block of a range while Squirrel is off. -/
theorem serves_range {d : Dev} {pa n : Nat}
    (h : d.errs = [] ∧ d.stackT = [] ∧ d.cache = [] ∧ (∀ i, i < 16 → d.reg (aHmc i 0x18) = 0) ∧ pa + n ≤ hbmEnd) (h5 : d.bit (aSqr 0x100) 31 = false)
    (h6 : d.sqrCopy = [] ∧ d.trx = []) : d.servesRange pa n := by
  refine ⟨h5, sound h, fun i hi => ⟨(sound h i hi).1, ?_, ?_⟩⟩
  · have hr : ∀ k, d.roomFor k = true := by intro k; simp [Dev.roomFor, Dev.sliceLines, h.2.2.1, sliceCap]
    have ht : ∀ k, d.trxFull k = false := by intro k; simp [Dev.trxFull, Dev.trxOpen, h6.2, Tbl.getD]
    have hs : ∀ k, d.stackBusy k = false := by intro k; rw [Dev.stackBusy, Dev.stack, h.2.1]; rfl
    simp [Dev.hbmWaits, Dev.missWaits, Dev.allocWaits, hr, ht, hs, h6.1]
  · rw [Dev.sqrProtects, Dev.sqrFind, Dev.sqrEntries, h5]; rfl

/-! ## Words of the two streams -/

theorem witness_StepRunsFrontCommand : ({ core0 with pending := [Instr.deviceEpochApply] }).pending = [.deviceEpochApply] := rfl

theorem witness_IdleStepIsOneCycle : core0.pending = [] ∧ core0.clockOn = true := by decide

theorem witness_IdleStepIsOneCycle_stopped : (rig (fun d => d.onPw (fun p => { p with therm := true }))).clockOn = false := by decide

theorem witness_VectorLaneOperations_bits : ∀ op ∈ ([0x07, 0x08, 0x0D, 0x10, 0x11, 0x12, 0x13, 0x20, 0x21] : List (BitVec 6)),
    VReady op 0 wv 0 core0 := by
  simp only [VReady, StreamWord.issues, StreamWord.tried]; decide

theorem witness_VectorLaneOperations : ∀ op ∈ ([0x01, 0x02, 0x03, 0x04, 0x05, 0x06, 0x09, 0x0A, 0x0B, 0x0C] : List (BitVec 6)),
    VReady op 0 wv 0 core0 := by
  simp only [VReady, StreamWord.issues, StreamWord.tried]; decide

/-- FP32 to FP8, and each half of a BF16 pair. -/
theorem witness_VectorLaneOperations_vcvt : VReady 0x14 1 wv 0 core0 := by
  simp only [VReady, StreamWord.issues, StreamWord.tried]; decide

theorem witness_VectorLaneOperations_halves : VReady 0x0C (BitVec.ofNat 58 (2 ^ 34)) wv 0 core0 := by
  simp only [VReady, StreamWord.issues, StreamWord.tried]; decide

def loaded : State := onCore (fun k => { k with queues := [(0, [ent false, ent true, ent false, ent true])] })

theorem witness_VectorReductionAndQueues : ∀ op ∈ ([0x18, 0x28, 0x29, 0x2A] : List (BitVec 6)), VReady op 0 wv 0 loaded := by
  simp only [VReady, StreamWord.issues, StreamWord.tried]; decide

/-- VADD with predicate 1, in a core of no job: its gate is neither OPEN nor CLOSED. -/
theorem witness_PredicatesFollowTheGate : ∃ v : BitVec 58,
    let w : XWord := wv.word 0x01 v
    (Instr.vadd 0 v wv).word = some (0, .x w) ∧ (StreamWord.x w).issues 0 core0.toDev ∧ vPred w.v ≠ 0
      ∧ ¬ (vPred w.v = 1 ∧ core0.gateOf 0 = 3) ∧ ¬ (vPred w.v = 2 ∧ core0.gateOf 0 = 4) := by
  refine ⟨BitVec.ofNat 58 (2 ^ 36), ?_⟩
  simp only [StreamWord.issues, StreamWord.tried]; decide

/-- A core of job 5 whose gate is in some state. -/
def gated (n : Nat) : State :=
  (onCore (fun k => { k with job := some 5 })).onDev (fun d => d.setReg (aStepJ 5 0x1C) (BitVec.ofNat 32 n))

/-- VADD with each predicate where it is true, and where it waits. -/
theorem witness_PredicatesFollowTheGate_gate : ∀ p ∈ [1, 2], let w : XWord := wv.word 0x01 (BitVec.ofNat 58 (p * 2 ^ 36))
    (Instr.vadd 0 (BitVec.ofNat 58 (p * 2 ^ 36)) wv).word = some (0, .x w) ∧ vPred w.v = p ∧ vOp w.v ≠ 0 ∧ vOp w.v ≠ 0x29
      ∧ (StreamWord.x w).issues 0 (gated (2 + p)).toDev ∧ (gated (2 + p)).gateOf 0 = 2 + p
      ∧ ∀ n ∈ [1, 2, 5, 6], (StreamWord.x w).tried 0 (gated n).toDev ∧ (gated n).windowCheck 0 true = .ok ∧ (gated n).xEncoding 0 w = .ok ∧ (gated n).gateOf 0 = n := by
  simp only [StreamWord.issues, StreamWord.tried]; decide

/-- VLDQ, VSTQ and VRDS with PRED = 1. -/
theorem witness_PredicatesFollowTheGate_queues : core0.windowCheck 0 true = .ok ∧ ∀ op ∈ ([0x28, 0x29, 0x2A] : List (BitVec 6)),
    let w : XWord := wv.word op (BitVec.ofNat 58 (2 ^ 36))
    vPred w.v ≠ 0 ∧ vOp w.v = op.toNat := by decide

theorem witness_ScalarInstructions : ∀ op ∈ ([0, 1, 2, 3, 4, 5, 6, 7, 8] : List (BitVec 4)),
    (sx.whole op 0).issues 0 core0.toDev ∧ (sa.whole op 0).issues 0 core0.toDev := by
  simp only [StreamWord.issues, StreamWord.tried]; decide

theorem witness_SyncInstructions : ∀ op ∈ ([0, 1, 2] : List (BitVec 4)),
    (yx.whole op 0).issues 0 core0.toDev ∧ (ya.whole op 0).issues 0 core0.toDev := by
  simp only [StreamWord.issues, StreamWord.tried]; decide

theorem witness_SyncInstructions_epoch : (yx.whole 3 1).issues 0 core0.toDev ∧ (ya.whole 3 0xFFFF).issues 0 core0.toDev := by
  simp only [StreamWord.issues, StreamWord.tried]; decide


/-- A table of zeros passes the checks of R134. -/
theorem witness_TransferInstructions : ∀ op ∈ ([1, 2, 3, 4] : List (BitVec 4)), (StreamWord.a (wl.loadWord op 0)).issues 0 core0.toDev
    ∧ (op = 1 ∨ op = 4 → (StreamWord.a (wl.storeWord op 0)).issues 0 core0.toDev) := by
  simp only [StreamWord.issues, StreamWord.tried]; decide

theorem witness_MatrixInstructionsAndNops_mrun : (StreamWord.x (wm.word 1 (BitVec.ofNat 124 (2 ^ 82)))).issues 0 core0.toDev := by
  simp only [StreamWord.issues, StreamWord.tried]; decide

theorem witness_MatrixInstructionsAndNops_drain : (StreamWord.x (wm.word 2 0)).issues 0 core0.toDev := by
  simp only [StreamWord.issues, StreamWord.tried]; decide

theorem witness_MatrixInstructionsAndNops_nops : (StreamWord.x (wm.word 0 0)).issues 0 core0.toDev ∧ (StreamWord.x (wv.word 0 0)).issues 0 core0.toDev
    ∧ (StreamWord.a (wl.loadWord 0 0)).issues 0 core0.toDev ∧ (StreamWord.a (wl.storeWord 0 0)).issues 0 core0.toDev := by
  simp only [StreamWord.issues, StreamWord.tried]; decide

theorem witness_WordFrame : (Instr.setf 0 0xFFFF yx).word = some (0, yx.whole 1 0xFFFF) ∧ (yx.whole 1 0xFFFF).issues 0 core0.toDev := by
  simp only [StreamWord.issues, StreamWord.tried]; decide

/-- A reserved vector opcode. -/
theorem witness_PreciseFaultStopsTheStream : ∃ u arg, let w : XWord := ({ wm with v := 0xFC00000000000000 } : MRest).word 0 0
    (Instr.mnop 0 0 { wm with v := 0xFC00000000000000 }).word = some (0, .x w) ∧ (StreamWord.x w).tried 0 core0.toDev
      ∧ (StreamWord.x w).check 0 core0.toDev = .fault u arg ∧ (core0.core 0).job = none := by
  refine ⟨2, 0, ?_⟩
  simp only [StreamWord.tried]; decide

/-- VLDQ on an empty queue waits; in a core at reset no word is tried. -/
theorem witness_WordsThatDoNotIssue : ∃ x, let w : XWord := wv.word 0x28 0
    (Instr.vldq 0 0 wv).word = some (0, .x w) ∧ (StreamWord.x w).tried 0 core0.toDev ∧ (StreamWord.x w).check 0 core0.toDev = .wait x := by
  refine ⟨⟨2, 0⟩, ?_⟩
  simp only [StreamWord.tried]; decide

theorem witness_WordsThatDoNotIssue_untried : (Instr.cnop 311 0 sa).word = some (311, sa.whole 0 0) ∧ ¬ (sa.whole 0 0).tried 311 core0.toDev := by
  simp only [StreamWord.tried]; decide

/-! ## Engines and streams of a core -/

/-- Core 0 in cycle 100 with one transfer of a kind on a queue. -/
def moving (kind : XferKind) (q n : Nat) : State :=
  { onCore (fun k => { k with
      queues := if kind = .store then [(q, [{ data := List.replicate 64 7 }])] else []
      trans := [{ seq := 0, kind := kind, q := q, ag := { cur := cmemBase 0, base := cmemBase 0 }, lo := cmemBase 0, hi := cmemBase 0 + 64 * n, logged := true }] })
    with cycle := 100 }

theorem witness_TransfersAndLoads_load : ∃ x, let s := moving .load 0 1
    s.clockOn = true ∧ (s.core 0).inReset = false ∧ (s.core 0).engNow 0 s.cycle < 2 ∧ (s.core 0).stopping = false ∧ s.replayDue 0 = false
      ∧ (s.core 0).replayNext 0 s.cycle = none ∧ s.loadReady 0 0 = some x ∧ s.accessWait 0 0 x.nextAddr true = none
      ∧ cmemOf x.nextAddr = some (0, 0) ∧ s.errs.getD ((cmemBase 0 + 0 / 64 * 64) / 64) [] = [] :=
  ⟨_, by decide, by decide, by decide, by decide, by decide, by decide, rfl, by decide, by decide, by decide⟩

theorem witness_TransfersAndLoads_timeout : ∃ s : State,
    s.clockOn = true ∧ (s.core 0).unacked = (3, 0, 0) :: [] ∧ 0 + 38000 ≤ s.cycle :=
  ⟨{ onCore (fun k => { k with unacked := [(3, 0, 0)] }) with cycle := 38000 }, by decide⟩

theorem witness_TransfersAndLoads_store : ∃ x e, let s := moving .store 4 1
    s.clockOn = true ∧ s.storeReady 0 0 = some (x, e) ∧ s.accessWait 0 1 x.nextAddr false = none
      ∧ cmemOf x.nextAddr = some (0, 0) ∧ s.reg (aCmem 0 0x18) = 0 ∧ e.data.length = 64 :=
  ⟨_, _, by decide, rfl, by decide, by decide, by decide, by decide⟩

def tableXfer : Transfer := { seq := 0, kind := .table, q := 6, lo := cmemBase 0, hi := cmemBase 0 + 4160, done := 65, buf := cellsAt [] (cmemBase 0) 4160 }
def tableState : State := { onCore (fun k => { k with trans := [tableXfer] }) with cycle := 65 }

/-- A load that no other agent's write met. -/
theorem witness_TransfersAndLoads_table : tableState.clockOn = true ∧ tableState.blockReady 0 .table 65 = some tableXfer ∧ tableXfer.buf.length = 4160
    ∧ tableState.tableWritten tableXfer = [] ∧ (let r := tableState.readBlocks 0 tableXfer.lo 65
         tableOk (r.1.tableRead [] tableXfer r.2.1 r.2.2).2.1 = true) := by
  refine ⟨by decide, rfl, by simp [tableXfer, cellsAt], ?_, by decide⟩
  have h : tableState.mem = [] ∧ tableState.poison = [] := ⟨rfl, rfl⟩
  simp [Dev.tableWritten, Dev.storedBlocks, h, tableXfer]

theorem witness_TransfersAndLoads_bank : ∃ b : BankWrite, let s := onCore (fun k => { k with banks := [⟨0, 3, 63, [5], [], 0⟩] })
    s.clockOn = true ∧ (s.core 0).bankUsed 0 3 = false ∧ (s.core 0).banks.find? (fun y => y.plane == 0 && y.bank == 3) = some b
      ∧ b.due ≤ s.cycle ∧ b.first + b.vals.length ≤ 64 :=
  ⟨_, by decide, by decide, rfl, by decide, by decide⟩

theorem witness_StreamsStartAndHalt : let s := booted id
    s.serves (aStrm 0 0x100) = true ∧ (s.core 0).inReset = false ∧ ((s.core 0).stream true).st = .idle := by decide

theorem witness_StreamsStartAndHalt_halted : let s := onCore (fun k => k)
    let t : State := s.onDev (fun d => d.onCore 0 (fun k => { k with a := { st := .running, halting := true } }))
    t.clockOn = true ∧ ((t.core 0).stream false).st = .running ∧ ((t.core 0).stream false).halting = true
      ∧ (t.core 0).unitsIdle false t.cycle = true := by decide

theorem witness_FlagWritesAndBadger : (booted id).serves (aStrm 0 0x134) = true ∧ (booted id).serves (aStrm 311 0x138) = true := by decide

theorem witness_FlagWritesAndBadger_badger : ∃ s : State, s.clockOn = true ∧ s.fld (aCctl 0 0x104) 23 0 ≤ (s.core 0).badger
    ∧ s.badgerHeld 0 = false ∧ (s.core 0).job = none ∧ ((s.core 0).stream true).st = .running :=
  ⟨core0.onDev (fun d => d.onCore 0 (fun k => { k with badger := 0xFFFFFF })), by decide⟩

theorem witness_ContextSwitch_save : let s := booted id
    s.serves (aCctl 0 0x110) = true ∧ (s.core 0).ctx = none ∧ (s.core 0).inReset = false := by decide

theorem witness_ContextSwitch_saveDone : ∃ x : CtxCmd, ∃ s : State, s.clockOn = true ∧ (s.core 0).ctx = some x ∧ x.save = true ∧ x.over = true :=
  ⟨{ save := true, cmem := true, start := 0, ready := true, moved := 65536 },
    booted (fun d => d.onCore 0 (fun k => { k with ctx := some { save := true, cmem := true, start := 0, ready := true, moved := 65536 } })), by decide⟩

theorem witness_ContextSwitch_restoreDone : ∃ x : CtxCmd, ∃ s : State, s.clockOn = true ∧ (s.core 0).ctx = some x ∧ x.save = false ∧ x.cmem = false ∧ x.over = true :=
  ⟨{ save := false, cmem := false, start := 0, ready := true },
    booted (fun d => d.onCore 0 (fun k => { k with ctx := some { save := false, cmem := false, start := 0, ready := true } })), by decide⟩

/-- Cores 0 and 1 are FIRST and LAST of a chain; core 1 has a SAVE, or none. -/
def chained (on : Bool) : State := booted (fun d => (((d.setReg (aPln 0 0x108) 1).setReg (aPln 1 0x108) 3)).onCore 1
  (fun k => { k with ctx := if on then some { save := true, cmem := false, start := 0 } else none }))

theorem witness_ContextSwitch_chain : ((chained true).chainOf 0).length = 2 ∧ (∀ m ∈ (chained true).chainOf 0, m ≠ 0 → ((chained true).core m).saving = true)
    ∧ (∃ m ∈ (chained false).chainOf 0, m ≠ 0 ∧ ((chained false).core m).saving = false) ∧ 2 ∉ (chained true).chainOf 0 := by decide

/-- An image that fits: version 1, the core's geometry, its chain mode and its job. -/
theorem witness_ContextSwitch_fits : ∃ s : State, s.serves (aCctl 0 0x110) = true ∧ (s.core 0).ctx = none ∧ (s.core 0).inReset = false
    ∧ s.restoreCheck 0 (s.addr48 (aCctl 0 0x118) (aCctl 0 0x11C) 12) = 0 :=
  ⟨booted (fun d => ({ d with mem := cellsPut [] 0 ([1, 0, 0, 0, 0, 0, 0, 0] ++ bytesLE 4 (d.reg (aPln 0 0x100)).toNat) }).onCore 0
    (fun k => { k with job := some 0 })), by decide⟩

theorem witness_ContextSwitch_check : (booted id).restoreCheck 0 0 = 3 := by decide

theorem witness_CoreMemoryUpkeep_quantum : ∃ s : State, s.clockOn = true ∧ (s.core 0).quantum < s.cycle / 64 :=
  ⟨{ core0 with cycle := 64 }, by decide⟩

theorem witness_CoreMemoryUpkeep_clear : ∃ s : State, s.clockOn = true ∧ (s.core 0).clearing = some 0 ∧ 0 + 8192 ≤ s.cycle :=
  ⟨{ onCore (fun k => { k with clearing := some 0 }) with cycle := 8192 }, by decide⟩

theorem witness_CoreMemoryUpkeep_scrub : ∃ s : State, s.clockOn = true ∧ s.bit (aCmem 0 0x108) 31 = true
    ∧ (s.core 0).scrubAt + s.fld (aCmem 0 0x108) 15 0 ≤ s.cycle ∧ (s.core 0).clearing = none
    ∧ (∀ b ∈ (s.core 0).banksNow s.cycle, b ≠ bankOf (64 * (s.core 0).scrub)) ∧ ((s.core 0).banksNow s.cycle).length < 8
    ∧ (s.core 0).scrub = 65535 :=
  ⟨{ (onCore (fun k => { k with scrub := 65535 })).onDev (fun d => d.putB (aCmem 0 0x108) 31 true) with cycle := 65535 }, by decide⟩


/-! ## Registers, configuration epochs, fences -/

theorem witness_RegisterWrites : ∀ off ∈ [0x100, 0x114, 0x118], (booted id).serves (aCctl 0 off) = true := by decide

theorem witness_RegisterWrites_strm : ∀ off ∈ [0x10, 0x118], (booted id).serves (aStrm 0 off) = true := by decide

theorem witness_RegisterWrites_armed : (booted id).armedFor (aCctl 0 0) = 0
    ∧ (booted (fun d => d.setReg (aCctl 0 0x28) 0x10000)).armedFor (aCctl 0 0) ≠ 0
    ∧ (booted (fun d => d.setReg (aCctl 0 0x28) 0x10000)).serves (aCctl 0 0x100) = true := by decide

theorem witness_RegisterWrites_size : ∃ n : Fin 9, ¬ (n.val = 4 ∧ (4 : BitVec 26).toNat % 4 = 0) ∧ ¬ (n.val = 8 ∧ (4 : BitVec 26).toNat % 8 = 0) :=
  ⟨8, by decide⟩

theorem witness_PagesArmAndCoreEpochs : ∃ p, pageOf (pageAddr 0xC) = some p ∧ p.kind.hasHeader = true ∧ (booted id).servesPage p = true ∧ (1 : BitVec 16) ≠ 0 :=
  ⟨_, rfl, by decide, by decide, by decide⟩

theorem witness_PagesArmAndCoreEpochs_epoch : ∃ s : State, s.clockOn = true ∧ (1 : BitVec 16) ≠ 0 ∧ (s.core 0).reached (1 : BitVec 16).toNat = true
    ∧ aCmem 0 0 ∈ corePageList 0 ∧ s.redLate = [] ∧ s.armedFor (aCmem 0 0) = 1 :=
  ⟨booted (fun d => d.setReg (aCmem 0 0x28) 0x10000), by decide⟩

theorem witness_DeviceEpochAndFences : (booted id).serves (aRst 0x118) = true ∧ (booted id).bit (aRst 0x11C) 31 = false := by decide

theorem witness_DeviceEpochAndFences_busy : ∃ s : State, s.serves (aRst 0x118) = true ∧ s.bit (aRst 0x11C) 31 = true ∧ s.clockOn = true
    ∧ (∀ c ∈ s.epochCores, (s.core c).reached (s.fld (aRst 0x11C) 15 0) = true) ∧ s.redLate = [] ∧ s.fld (aRst 0x11C) 15 0 = 7 :=
  ⟨booted (fun d => d.setReg (aRst 0x11C) 0x80000007), by decide⟩

theorem witness_DeviceEpochAndFences_waits : let s := booted (fun d => (d.setReg (aRst 0x11C) 0x80000007).onCore 0 (fun k => { k with x := { st := .running } }))
    s.clockOn = true ∧ 0 ∈ s.epochCores ∧ (s.core 0).reached (s.fld (aRst 0x11C) 15 0) = false := by decide

theorem witness_DeviceEpochAndFences_none : (booted (fun d => { d with fences := [⟨311, none, true⟩] })).serves (aCctl 311 8) = true
    ∧ (∀ f ∈ (booted id).fences, (booted id).fenceFree f = false) ∧ (booted id).clockOn = true := by decide

theorem witness_DeviceEpochAndFences_request : (booted id).serves (aCctl 311 8) = true ∧ (booted id).fpState 311 < 2
    ∧ (∀ f ∈ (booted id).fences, f.phys ≠ 311) := by decide

theorem witness_DeviceEpochAndFences_apply : ∃ s : State, ∃ f : FenceReq, s.clockOn = true ∧ s.fences = [f] ∧ f.phys < 312 ∧ s.fenceFree f = true :=
  ⟨booted (fun d => { d with fences := [⟨311, none, true⟩] }), ⟨311, none, true⟩, by decide +kernel⟩

/-! ## Mesh -/

theorem witness_MeshPackets : core0.clockOn = true ∧ core0.delivers 0 none = true ∧ (∀ i, i < 2 → core0.cmemWait 0 2 2 (64 * ((65535 + i) % 65536)) = none)
    ∧ (∀ i, i < 2 → core0.errs.getD ((cmemBase 0 + 64 * ((65535 + i) % 65536)) / 64) [] = []) := by decide

theorem witness_MeshPackets_write : core0.cmemWait 0 2 1 (64 * 65535) = none ∧ core0.cmemWait 0 2 2 0x3FFFFC = none ∧ meshWriteOk 0x3FFFFC [1, 2, 3, 4] = true
    ∧ core0.reg (aCmem 0 0x18) = 0 ∧ (List.replicate 64 (0 : Byte)).length = 64 := by decide

theorem witness_MeshPackets_sunk : core0.clockOn = true ∧ core0.delivers 0 (some 63) = false := by decide

/-- Reduction 15 of the cores at columns 0 and 1 of row 0, to column 1. -/
def reducing : State :=
  (onCore (fun k => { k with job := some 0 })).onDev (fun d => { (((d.onCore 1 (fun k => { k with job := some 0 })).setReg (aNoc 0 (0x120 + 8 * 15)) 0x80000010).setReg (aNoc 0 (0x124 + 8 * 15)) 0x01000000) with
    redBuf := [(redKey (coreAt 0 1) 15 0, ⟨2, [1], false⟩), (redKey (coreAt 0 1) 15 1, ⟨2, [3], true⟩)], redNo := [(16 * coreAt 0 1 + 15, 2)] })

theorem witness_MeshReductions_stray : core0.clockOn = true ∧ flag (core0.redDst 0) 31 = false := by decide

theorem witness_MeshReductions_kept : reducing.clockOn = true ∧ flag (reducing.redDst 15) 31 = true ∧ reducing.inRect 15 (coreAt 0 0) = true
    ∧ Tbl.look reducing.redBuf (redKey 311 15 4) = none ∧ reducing.redFly.getD (redKey 311 15 4) [] = [] := by decide

theorem witness_MeshReductions_combine : ∃ h rest, (reducing.redPorts 15 (coreAt 0 1)).map (fun p => Tbl.look reducing.redBuf (redKey (coreAt 0 1) 15 p))
    = (h :: rest).map some ∧ (∀ q ∈ rest, q.chunk = h.chunk) ∧ reducing.redInOrder (coreAt 0 1) 15 h.chunk = true ∧ reducing.redCredit (coreAt 0 1) 15 = true
    ∧ ({ reducing with redNo := [] } : State).redInOrder (coreAt 0 1) 15 h.chunk = false ∧ rest ≠ [] ∧ reducing.redNext 15 (coreAt 0 1) = none ∧ coreAt 0 1 < 312 :=
  ⟨⟨2, [1], false⟩, [⟨2, [3], true⟩], by decide⟩

/-! ## Planes and the drain path -/

/-- MRUN of one K-step from LQ0 and LQ1 on slot 0 of plane F, opening it. -/
def opWord : Nat := 2 ^ 124 + 2 ^ 118 + 2 ^ 82

def opA : Op := { w := opWord, seq := 5, pc := 0, cyc := 0 }

/-- Core 0 in cycle 1000 with this operation issued, or in flight. -/
def issued (o : Op) : State := { onCore (fun k => { k with issue := [o] }) with cycle := 1000 }
def flying (o : Op) (f : Core → Core) : State := { onCore (fun k => f { k with flight := [o] }) with cycle := 1000 }

theorem witness_OperationsEnterOrAskForLeave : (issued opA).clockOn = true ∧ ((issued opA).core 0).entering 0 = some opA
    ∧ (issued opA).mayEnter 0 0 opA = true ∧ (issued opA).leaveNeed 0 opA.w ≤ (((issued opA).core 0).edge (mPlane opA.w)).tokens
    ∧ mPre opA.w = 0 := by decide

theorem witness_OperationsEnterOrAskForLeave_continues : let o : Op := { opA with w := 2 ^ 124 + 2 ^ 82 }
    mOpen o.w = false ∧ (∀ key ∈ o.keys, (((issued o).core 0).slot key).stale = false) ∧ mOpen opA.w = true := by decide

/-- The longest operation needs leave. -/
def opLong : Op := { opA with w := opWord + (2 ^ 20 - 1) * 2 ^ 98 }

theorem witness_OperationsEnterOrAskForLeave_asks : (issued opLong).clockOn = true ∧ ((issued opLong).core 0).entering 0 = some opLong
    ∧ (issued opLong).mayEnter 0 0 opLong = true ∧ (((issued opLong).core 0).edge (mPlane opLong.w)).tokens < (issued opLong).leaveNeed 0 opLong.w
    ∧ (∀ r ∈ (issued opLong).leaveQ, ¬ (r.core = 0 ∧ r.plane = mPlane opLong.w)) := by decide

/-- The same operation with streamed row scales from LQ2, and a block of 48 of them. -/
def opScaled : Op := { opA with w := opWord + 2 ^ 80 + 2 * 2 ^ 78, t0 := some 100 }

def scaled : State := flying opScaled (fun k => { k with queues := [(2, [{ data := bytesLE 64 (2 ^ 8 + 48 * 2 ^ 16) }, ent false])] })

theorem witness_ScalesAndGroupsEnter : ∃ k1 o1 es, scaled.clockOn = true ∧ (scaled.core 0).injecting 0 = some opScaled ∧ scaled.edgeReady 0 opScaled = true
    ∧ mRsrc opScaled.w = true ∧ opScaled.rowBlk = none ∧ mCsrc opScaled.w ≠ 2
    ∧ (scaled.core 0).takeBlock opScaled (mRq opScaled.w) scaled.cycle = some (k1, o1, es) ∧ blkKind (entryBytes es) = 1
    ∧ scaled.rowsUsed 0 opScaled.w ≤ blkCount (entryBytes es) ∧ blkTag (entryBytes es) = (mTag opScaled.w + opScaled.inj) % 64 :=
  ⟨_, _, _, by decide, by decide, by decide, by decide, by decide, by decide, rfl, by decide, by decide, by decide⟩

def fed : State := flying { opA with t0 := some 100 } (fun k => { k with
  queues := [(0, List.replicate 8 (ent false)), (1, List.replicate 8 (ent false))] })

theorem witness_ScalesAndGroupsEnter_inject : (fed.injectPlan 0 0).any (fun y => !chainWrong y && !chainSkewed y
    && (fed.forwardsTo 0 y.o).isNone) = true := by decide +kernel

/-- The operation with a group of one element, 3 × 2^-10, injected. -/
def grp : Group := { g := 0, rows := [[some ⟨3, -10, false, false, 0x3F800000⟩]], rnd := false, cyc := 100, len := 1 }
def opIn : Op := { opA with t0 := some 100, inj := 1, grps := [grp], edgeEnd := 101 }

theorem witness_GroupBoundaries : (flying opIn id).clockOn = true ∧ (flying opIn id).boundaryPlan 0 0 = some (opIn, grp)
    ∧ (flying opIn id).unchecked 0 opIn = false ∧ ((flying opIn id).core 0).dec = none ∧ comparisons (mCell opIn.w) grp.g grp.rows [] [] = [] := by decide

theorem witness_GroupBoundaries_mismatch : ∃ m, comparisons (mCell opIn.w) grp.g grp.rows [⟨0, 0, 1⟩] [] = m :: []
    ∧ (∀ x ∈ (flying opIn id).allRolled 0 opIn.seq, x.rolls < 4) ∧ minChain (((flying opIn id).core 0).rolledFrom opIn.seq) = 0 :=
  ⟨_, rfl, by decide, by decide⟩

theorem witness_GroupBoundaries_unchecked : (flying opIn (fun k => { k with edges := [(0, { laneOff := true })] })).unchecked 0 opIn = true
    ∧ (flying opIn (fun k => { k with edges := [(0, { laneOff := true })] })).boundaryPlan 0 0 = some (opIn, grp) := by decide

def decA : Decision := { plane := 0, slot := 0, half := 0, lrow := 0, count := 0, s0 := 3, c0 := 4, run := 1, rep := false, op := 5, uplane := 0, unit := 0 }

theorem witness_GroupBoundaries_fifth : (∃ x ∈ (flying { opIn with rolls := 4 } id).allRolled 0 5, 4 ≤ x.rolls)
    ∧ ((flying { opIn with rolls := 4 } id).boundaryPlan 0 0).isSome = true ∧ ((flying { opIn with rolls := 4 } id).core 0).dec = none :=
  by decide

theorem witness_GroupBoundaries_other : let s := flying opIn (fun k => { k with dec := some { decA with op := 3, plane := 1 } })
    s.boundaryPlan 0 0 = some (opIn, grp) ∧ ((s.core 0).dec.map (fun x => x.op)) = some 3 ∧ (3 : Nat) ≠ opIn.seq := by decide

theorem witness_DecisionsParityRetirement_open : let s := flying opIn (fun k => { k with edges := [(0, { held := some decA })] })
    s.clockOn = true ∧ (s.core 0).dec = none ∧ ((s.core 0).edge 0).held = some decA
      ∧ (s.core 0).flight.find? (fun y => y.seq == decA.op) = some opIn ∧ (∀ y ∈ s.allRolled 0 opIn.seq, y.rolls < 4) := by decide

theorem witness_DecisionsParityRetirement_parity : (core0.core 0).writerOf (8 * 1 + 7) = none := by decide

theorem witness_DecisionsParityRetirement_retire : ∃ o, (flying { opIn with grps := [], added := 1 } id).retirePlan 0 0 = some o ∧ o.seq = 5 :=
  ⟨_, rfl, rfl⟩

theorem witness_PausesAndPackFences : let s := onCore (fun k => { k with edges := [(2, { revoked := true })] })
    s.clockOn = true ∧ ((s.core 0).edge 2).revoked = true ∧ ((s.core 0).edge 2).paused = false ∧ (s.core 0).atBoundary 2 = true := by decide

theorem witness_PausesAndPackFences_fence : let s := rig (fun d => d.onCore 0 (fun k => { k with puPend := [16] }))
    s.clockOn = true ∧ (16 ∈ (s.core 0).puPend ∧ 16 / 16 = 1) ∧ (s.core 0).atAnEpoch = true ∧ (∀ o ∈ (s.core 0).flight, 1 ∉ o.planes) := by decide

/-- DRAIN of slot 0 of plane F with no options, issued. -/
def drn : Drain := { w := 2 * 2 ^ 124, seq := 0, pc := 0, cyc := 0 }

theorem witness_DrainsStartAndRun : ∃ x, (onCore (fun k => { k with drains := [drn] })).drainMayStart 0 = some x ∧ x = drn := ⟨_, rfl, rfl⟩

theorem witness_DrainsStartAndRun_row : ∃ x, (onCore (fun k => { k with drain := some { drn with rows := 2 } })).rowReady 0 = some x ∧ x.row + 1 ≠ x.rows :=
  ⟨_, rfl, by decide⟩

theorem witness_DrainsStartAndRun_last : ∃ x, (onCore (fun k => { k with drain := some { drn with rows := 1 } })).rowReady 0 = some x ∧ x.row + 1 = x.rows :=
  ⟨_, rfl, by decide⟩

/-! ## Memory -/

theorem witness_SliceAccesses : core0.clockOn = true ∧ core0.servesBlock (hbmEnd - 64) := ⟨by decide, serves (by decide)⟩

theorem witness_SliceAccesses_parity : core0.servesBlock 128 ∧ (core0.line (core0.hbmKey 128)).has (core0.hbmKey 128) = false := ⟨serves (by decide), by decide⟩

theorem witness_SliceAccesses_write : ([9] : List Byte) ≠ [] ∧ (hbmEnd - 1) % 64 + [(9 : Byte)].length ≤ 64 ∧ core0.servesBlock (hbmEnd - 1) :=
  ⟨by decide, by decide, serves (by decide)⟩

theorem witness_SliceAccesses_evict : ∃ s : State, s.clockOn = true ∧ (0 : Nat) < hbmEnd ∧ s.stackBusy (s.hbmKey 0) = false ∧ s.trxFull (s.hbmKey 0) = false
    ∧ (s.stack (keyStack (s.hbmKey 0))).held = false ∧ s.reg (aHmc (keyStack (s.hbmKey 0)) 0x18) = 0 ∧ (s.line (s.hbmKey 0)).whole
    ∧ (s.line (s.hbmKey 0)).dirty = true := by
  refine ⟨rig (fun d => { d with cache := [(0, { v1 := true, dirty := true, d1 := List.replicate 64 1 })] }), ?_⟩
  simp only [CLine.whole]; decide

theorem witness_AtomicsAndReductions : atomicWidth (0 : BitVec 5).toNat = some 4 ∧ (4 : PhysAddr).toNat % 4 = 0 ∧ core0.servesBlock (4 : PhysAddr).toNat
    ∧ core0.peekPoison (4 : PhysAddr).toNat = false := ⟨by decide, by decide, serves (by decide), by decide⟩

theorem witness_AtomicsAndReductions_poison : (rig (fun d => { d with poison := [0] })).peekPoison (4 : PhysAddr).toNat = true
    ∧ (rig (fun d => { d with poison := [0] })).servesBlock (4 : PhysAddr).toNat := ⟨by decide, serves (by decide)⟩

theorem witness_AtomicsAndReductions_refused : ∀ w, atomicWidth (0 : BitVec 5).toNat = some w → hbmEnd ≤ (2 : PhysAddr).toNat ∨ (2 : PhysAddr).toNat % w ≠ 0 := by
  intro w h
  cases (show (some 4 : Option Nat) = some w from h)
  decide

theorem witness_AtomicsAndReductions_posted : core0.servesBlock (60 : BitVec 41).toNat ∧ ([1, 2, 3, 4] : List Byte) ≠ []
    ∧ (60 : BitVec 41).toNat % 64 + ([1, 2, 3, 4] : List Byte).length ≤ 64 ∧ (60 : BitVec 41).toNat % redWidth (0 : Fin 8) = 0
    ∧ ([1, 2, 3, 4] : List Byte).length % redWidth (0 : Fin 8) = 0
    ∧ ¬ ((0 : Fin 8).val = 6 ∧ (60 : BitVec 41).toNat % 128 = 0 ∧ ([1, 2, 3, 4] : List Byte).length = 64) :=
  ⟨serves (by decide), by decide⟩

theorem witness_AtomicsAndReductions_outside : ∃ pa : BitVec 41, hbmEnd ≤ pa.toNat := ⟨0x18000000000, by decide⟩

theorem witness_StacksScrubAndCalibrate_scrub : ∃ s : State, s.clockOn = true ∧ s.bit (aHmc 15 0x134) 31 = true ∧ (s.stack 15).window = false ∧ (s.stack 15).held = false
    ∧ (s.stack 15).selfRefresh = false ∧ (s.stack 15).scrubAt + 64 * s.fld (aHmc 15 0x134) 15 0 ≤ s.cycle ∧ (s.stack 15).scrub = 12582911 :=
  ⟨{ rig (fun d => (d.setReg (aHmc 15 0x134) 0x80000001).setStack 15 { scrub := 12582911 }) with cycle := 64 }, by decide⟩

def calStack (k : Stack) (tick : Nat) : State := { booted (fun d => d.setStack 15 { k with trained := true }) with tick := tick }

theorem witness_StacksScrubAndCalibrate_window : ∀ n ∈ [0, 4], let s := calStack { defers := n, due := 7 } 7
    s.pw.railHold = false ∧ (s.stack 15).trained = true ∧ (s.stack 15).held = false ∧ (s.stack 15).window = false ∧ (s.stack 15).due ≤ s.tick
      ∧ s.fw.stacksDue.contains 15 = false := by decide

theorem witness_StacksScrubAndCalibrate_defer : ∀ n ∈ [3, 4], let s := calStack { defers := n, due := 7 } 6
    s.serves (aHmc 15 0x128) = true ∧ (s.stack 15).trained = true ∧ s.tick < (s.stack 15).due ∧ (s.stack 15).window = false ∧ (s.stack 15).defers = n := by decide

/-! ## DMA -/

/-- Channel 63 enabled, on a ring of four descriptors at 0. -/
def dma (k : DmaChan) (f : Dev → Dev) : State :=
  booted (fun d => f (((d.setReg (aDmaC 63 0) 1).setReg (aDmaC 63 0x10) 3).setChan 63 k))

theorem witness_DmaChannelStates : ∀ off ∈ [0, 0x18], (dma {} id).serves (aDmaC 63 off) = true := by decide

theorem witness_DmaChannelStates_poll : let s : State := { dma { st := .wait } (fun d => d.setF (aDmaC 63 0) 23 16 1) with cycle := 1024 }
    s.clockOn = true ∧ (s.chan 63).st = .wait ∧ s.fld (aDmaC 63 0) 23 16 ≠ 0 ∧ (s.chan 63).polled + 1024 * s.fld (aDmaC 63 0) 23 16 ≤ s.cycle := by decide

/-- A descriptor with OWN = 1 that moves four bytes from 0x1000 to 0x2000; its bytes. -/
def dmaBytes : List Byte := bytesLE 64 (0x1000 + 0x2000 * 2 ^ 64 + 3 * 2 ^ 128 + 4 * 2 ^ 152 + 3 * 2 ^ 192 + 4 * 2 ^ 216 + 2 ^ 447)

theorem witness_DmaChannelStates_fetch : let s := dma { st := .active, fetch := 3 } (fun d => { d with mem := cellsPut [] (d.hbmKey 192) dmaBytes })
    s.clockOn = true ∧ s.dmaMayFetch 63 = true ∧ s.dmaRingWait 63 = none ∧ (s.dmaRingRead 63).2.2.2 = false ∧ (s.dmaRingRead 63).2.2.1 = false
      ∧ dmaOwn (ofBytesLE (s.dmaRingRead 63).2.1) = true ∧ dmaRefused (ofBytesLE (s.dmaRingRead 63).2.1) = false := by decide +kernel

theorem witness_DmaChannelStates_wait : let s := dma { st := .active } id
    s.dmaMayFetch 63 = true ∧ s.dmaRingWait 63 = none ∧ (s.dmaRingRead 63).2.2.2 = false ∧ (s.dmaRingRead 63).2.2.1 = false
      ∧ dmaOwn (ofBytesLE (s.dmaRingRead 63).2.1) = false ∧ (s.chan 63).dbPend = false := by decide +kernel

theorem witness_DmaChannelStates_error : (let s := dma { st := .active } (fun d => { d with poison := [0] })
    s.dmaMayFetch 63 = true ∧ s.dmaRingWait 63 = none ∧ (s.dmaRingRead 63).2.2.1 = true)
    ∧ (let s := dma { st := .active } (fun d => d.setReg (aDmaC 63 0) 5)
       s.dmaMayFetch 63 = true ∧ s.dmaRingWait 63 = none ∧ (s.dmaRingRead 63).2.2.2 = true) := by decide +kernel

theorem witness_DmaChannelStates_message : let s : State := { dma { pend := 1 } (fun d => d.setReg (aDmaC 63 0x1C) 0x80000000) with tick := 65535 }
    s.clockOn = true ∧ (s.chan 63).oldest + s.fld (aDmaC 63 0x20) 31 16 ≤ s.tick ∧ s.bit (aDmaC 63 0x1C) 31 = true ∧ 0 < (s.chan 63).pend := by decide

def desc : DmaDesc := { idx := 3, bytes := dmaBytes }

theorem witness_DmaMovesData : let s := dma { st := .active, descs := [desc] } id
    s.clockOn = true ∧ (s.chan 63).mayMove 0 = some desc ∧ dmaSrcHost desc.w = false ∧ dmaDstHost desc.w = false ∧ s.bit (dmaPage 63 + 0x18) 0 = false
      ∧ (∀ m, m < dmaTotal desc.w → dmaOverlap desc.w (dmaDstAt desc.w m).1 = false)
      ∧ (∀ m, m < dmaPiece desc.w desc.moved → dmaOverlap desc.w ((dmaDstAt desc.w desc.moved).1 + m) = false) := by decide +kernel

theorem witness_DmaMovesData_blocks : let s := dma { st := .active, descs := [desc] } id
    s.servesBlock (dmaSrcAt desc.w desc.moved).1 ∧ s.servesBlock (dmaDstAt desc.w desc.moved).1 := ⟨serves (by decide +kernel), serves (by decide +kernel)⟩

theorem witness_DmaMovesData_fail : let e : DmaDesc := { desc with bytes := bytesLE 64 (3 * 2 ^ 288) }
    ((dma { descs := [desc, e] } id).chan 63).mayMove 1 = some e ∧ dmaDstHost e.w = true ∧ dmaSrcHost e.w = true := by decide +kernel

theorem witness_DmaMovesData_timeout : let s : State := { dma { descs := [{ desc with unacked := some 1 }] } id with cycle := 190001 }
    ∃ e, (s.chan 63).descs[0]? = some e ∧ e.unacked = some 1 ∧ 1 + 190000 ≤ s.cycle
      ∧ ∀ m, m < dmaTotal e.w → dmaOverlap e.w (dmaDstAt e.w m).1 = false := ⟨_, rfl, rfl, by decide, by decide +kernel⟩

theorem witness_DmaMovesData_writeback : let e : DmaDesc := { desc with moved := 4 }
    let s := dma { st := .active, descs := [e] } id
    (s.chan 63).descs = e :: [] ∧ (s.chan 63).st ≠ .disabled ∧ e.unacked = none ∧ e.dropped = false ∧ e.wb = false ∧ s.ownsHeld 63 e.idx = false
      ∧ (e.ended = true ∨ dmaTotal e.w ≤ e.moved) ∧ e.status ≠ 0x12
      ∧ s.dmaRingHost 63 = false ∧ e.idx < s.dmaSize 63 := by decide +kernel

theorem witness_DmaMovesData_ring : (dma {} id).servesBlock ((dma {} id).dmaRingAt 63 3) := serves (by decide +kernel)


/-! ## Sloer fabric -/

def ringOf (r : SendRing) (d : Dev) : Dev := d.putRing 5 r

theorem witness_SendRings : let s := net (fun d => ringOf { st := .wait } (d.setReg (aFabSq 5 0x14) 0x80010000))
    s.serves (aFabSq 5 0x10) = true ∧ (s.ring 5).st = .wait ∧ s.bit (aFabSq 5 0x14) 31 = true ∧ s.fld (aFabSq 5 0x14) 23 16 ≠ 0
      ∧ (s.ring 5).polled + 64 * s.fld (aFabSq 5 0x14) 23 16 ≤ ({ s with cycle := 64 } : State).cycle := by decide

theorem witness_SendRings_other : (net id).serves (aFabSq 5 0x14) = true ∧ (net id).serves (aFab 0x140) = true ∧ (net id).serves (aFab 0x100) = true
    ∧ (net id).fw.peers = [] := by decide

theorem witness_SendRings_self : ∀ p, pageOf (aFab 0x100) = some p → (booted (fun d => d.setReg (aFab 8) 0)).quiet p (aFab 0) 0x100 = true := by
  intro p h
  cases (show some _ = some p from h)
  decide

theorem witness_SendRings_report : let s : State := { net (fun d => ((d.setReg (aFab 0x144) 0xFFFF).setReg (aFabJ 5 0x10) 0x80000000).setCq 5 { pend := 1 }) with tick := 0xFFFF }
    s.clockOn = true ∧ s.ready = true ∧ s.fld (aFab 0x144) 15 0 ≠ 0 ∧ (s.cq 5).oldest + s.fld (aFab 0x144) 15 0 ≤ s.tick ∧ s.bit (aFabJ 5 0x10) 31 = true
      ∧ 0 < (s.cq 5).pend := by decide

/-- A send descriptor of a KIND to rank 1: eight bytes from 0 to 0x10FFC. -/
def sendWord (kind : Nat) : Nat := 0x10FFC * 2 ^ 64 + 8 * 2 ^ 128 + 2 ^ 160 + kind * 2 ^ 192

theorem witness_RequestsAreCut : ∀ kind ∈ [0, 1], let w := sendWord kind
    let s := net (ringOf { st := .active, desc := some w })
    s.clockOn = true ∧ s.ready = true ∧ s.ringDesc 5 kind = some w ∧ (s.route 5 (sdRank w)).isSome = true ∧ (s.ring 5).started = false ∧ s.sendStatus 5 w = 0
      ∧ s.slotBusy 5 (sdRank w) (sdMsg w % 16) = false := by decide

/-- Its second packet; an AMO of a 4-byte operand. -/
theorem witness_RequestsAreCut_second : let w := sendWord 0
    let s := net (fun d => ringOf { st := .active, desc := some w, started := true, off := 4, send := some 9 }
      (d.onFab (fun f => { f with sends := [(9, { job := 5, kind := 0, dst := 1, msg := 0, coll := 0, total := 8 })] })))
    s.ringDesc 5 0 = some w ∧ (s.route 5 (sdRank w)).isSome = true ∧ (s.ring 5).started = true ∧ sdKind w = 0 ∧ (s.ring 5).send = some 9
      ∧ ((Tbl.look s.fab.sends 9).map (fun x => x.cut)) = some false := by decide

theorem witness_RequestsAreCut_amo : let w := 4 * 2 ^ 128 + 2 ^ 160 + 2 * 2 ^ 192
    let s := net (ringOf { st := .active, desc := some w })
    s.ringDesc 5 2 = some w ∧ (s.route 5 (sdRank w)).isSome = true ∧ (s.ring 5).started = false ∧ s.sendStatus 5 w = 0 := by decide

theorem witness_RequestsAreCut_data : (net (ringOf { st := .active, desc := some (sendWord 0) })).servesRange 0 4
    ∧ ∀ i, i < 4 → (net (ringOf { st := .active, desc := some (sendWord 0) })).peekPoison (0 + i) = false :=
  ⟨serves_range (by decide) (by decide) (by decide), by decide⟩

theorem witness_RequestsAreCut_squirrel : let h : HwSend := { job := 5, rank := 1, addr := 0, data := [1, 2] }
    let s := net (fun d => { d with hwSends := [h, { h with get := some (0, 64), data := [] }] })
    s.hwSends = h :: [{ h with get := some (0, 64), data := [] }] ∧ h.poison = false ∧ h.send = none ∧ (s.route h.job h.rank).isSome = true
      ∧ s.freeSlot h.job h.rank = some 0 := by decide

/-- COL descriptor: ALLREDUCE of eight bytes in collective 2, whose tree has this device at its root. -/
def colWord : Nat := 8 * 2 ^ 128 + 3 * 2 ^ 192 + 2 * 2 ^ 206
def tree (d : Dev) : Dev := (d.setReg (aFabColl 2 0) 0xC001000F).setReg (aFabColl 2 4) 0x05000000

def colNet : State := net (fun d => ringOf { st := .active, desc := some colWord } (tree d))

theorem witness_RequestsAreCut_col : ∃ c k w, colNet.colOf 5 false = some (c, k, w) ∧ Tbl.look colNet.fab.cols c = none ∧ k.mode < 2 ∧ k.len ≠ 0
    ∧ colNet.sendStatus 5 w = 0 ∧ (colNet.ring 5).started = false ∧ (colNet.fab.chunks.filter (fun x => x.coll == c && x.input == 10)).length < 8
    ∧ k.src = 0 ∧ min 4096 k.len = 8 :=
  ⟨_, _, _, rfl, by decide, by decide, by decide, by decide, by decide, by decide, by decide, by decide⟩

theorem witness_RequestsAreCut_colData : colNet.servesRange 0 8 := serves_range (by decide) (by decide) (by decide)

theorem witness_RequestsAreCut_gate : let s := net (fun d => { (tree d).setReg (aStepJ 5 4) 0x20000 with gateSends := [5] })
    (s.colOf 5 true).map (fun x => x.1) = some 2 ∧ s.treeOk 2 5 = true := by decide

/-- A PUT of eight bytes waits for port 0. -/
def outPut : OutPkt := { pkt := { type := 0, job := 5, dst := 1, len := 8, data := List.replicate 8 1 }, ports := [0], send := some 9, bytes := 8 }

def sending : State := net (fun d => d.onFab (fun f => { f with out := [outPut] }))

theorem witness_PacketsLeaveAndTagsEnd : sending.clockOn = true ∧ sending.ready = true ∧ sending.usable 0 = true ∧ (sending.port 0).again = []
    ∧ sending.txGrant 0 false = some (0, 0, outPut) ∧ sending.freeTag = some 0 ∧ outPut.send = some 9 ∧ outPut.pkt.cls < 6 ∧ outPut.pkt.type ≠ 6
    ∧ outPut.pkt.type ≠ 7 := by decide +kernel

theorem witness_PacketsLeaveAndTagsEnd_none : ∀ k ∈ [({ type := 3, cls := 1, job := 5, dst := 1 } : Pkt), { type := 6, cls := 3, job := 5, coll := 15, len := 4, data := [1, 2, 3, 4] }],
    let o : OutPkt := { pkt := k, ports := [0] }
    let s := net (fun d => d.onFab (fun f => { f with out := [o] }))
    s.usable 0 = true ∧ (s.port 0).again = [] ∧ s.txGrant 0 true = some (k.cls, 0, o) ∧ o.send = none ∧ k.cls < 6 := by decide +kernel

theorem witness_PacketsLeaveAndTagsEnd_again : let tx : Tx := { pkt := outPut.pkt, lseq := 7, ack := 0, nak := false, crdClass := 0, crd := 0 }
    let s := net (fun d => d.onFab (fun f => { f with ports := [(23, { up := true, credits := bufFlits, replay := [tx], again := [tx] })] }))
    s.usable 23 = true ∧ (s.port 23).again = tx :: [] := by decide

def tag9 : Tag := { job := 5, dst := 1, type := 0, bytes := 8, land_ := 0, send := 9, tick := 0 }

theorem witness_PacketsLeaveAndTagsEnd_timeout : let s : State := { net (fun d => (d.setReg (aFab 0x114) 100).onFab (fun f => { f with
      tags := [(0xFFFF, tag9)], sends := [(9, { job := 5, kind := 0, dst := 1, msg := 15, coll := 0, total := 8, left := 1, cut := true })] })) with tick := 100 }
    Tbl.look s.fab.tags (0xFFFF : BitVec 16).toNat = some tag9 ∧ tag9.tick + s.fld (aFab 0x114) 15 0 ≤ s.tick ∧ (Tbl.look s.fab.sends tag9.send).isSome = true := by
  decide

/-- The header of a packet from rank 1 of job 5, the first of its link. -/
def hdr (k : Pkt) : BitVec 256 := BitVec.ofNat 256 (Tx.header { pkt := { k with job := 5, src := 1 }, lseq := 0, ack := 0, nak := false, crdClass := 0, crd := 0 })

def takesNow (s : State) (type : Nat) (h : BitVec 256) (data : List Byte) : Bool :=
  (s.port 0).up && hcrcOk h.toNat && decide (bitsN h.toNat 42 31 = ((s.port 0).rxSeq + 1) % 4096)
    && (Tx.ofHeader h.toNat data).pkt.arrives type && s.expects (Tx.ofHeader h.toNat data).pkt

theorem takes_of {s : State} {type : Nat} {h : BitVec 256} {data : List Byte} (hh : takesNow s type h data = true) : s.takes 0 type h.toNat data {} := by
  simp only [takesNow, Bool.and_eq_true, decide_eq_true_eq] at hh
  exact ⟨⟨hh.1.1.1.1, rfl, hh.1.1.1.2, hh.1.1.2⟩, hh.1.2, hh.2⟩

def putHdr : BitVec 256 := hdr { type := 0, len := 2, last := true, off := 0, addr := 0x10000, msg := 3 }

theorem witness_RequestsReceived_put : (net id).takes 0 0 putHdr.toNat [7, 8] {} := takes_of (by decide +kernel)

theorem witness_RequestsReceived_put2 : let k := (Tx.ofHeader putHdr.toNat [7, 8]).pkt
    let w := (net id).msgAt k.job k.src k.msg
    ((net id).route k.job k.src).isSome = true ∧ (net id).peekPoison w = false ∧ k.addr = 0x10000 ∧ k.len = 2 ∧ w = 304
      ∧ ((k.addr + k.len + 63) / 64 ≤ w / 64 ∨ w / 64 < k.addr / 64) := by decide +kernel

theorem witness_RequestsReceived_put3 : (net id).servesRange 0x10000 2 ∧ (net id).servesRange 304 16 :=
  ⟨serves_range (by decide) (by decide) (by decide), serves_range (by decide) (by decide) (by decide)⟩

theorem witness_RequestsReceived_get : (net id).takes 0 1 (hdr { type := 1, len := 2, addr := 304 }).toNat [] {}
    ∧ (Tx.ofHeader (hdr { type := 1, len := 2, addr := 304 }).toNat []).pkt.addr = 304 := ⟨takes_of (by decide +kernel), by decide +kernel⟩

theorem witness_RequestsReceived_amo : let h := hdr { type := 4, len := 16, op := 2, addr := 304 }
    (net id).takes 0 4 h.toNat (List.replicate 16 0) {} ∧ atomicWidth (Tx.ofHeader h.toNat []).pkt.op = some 8 ∧ (Tx.ofHeader h.toNat []).pkt.addr % 8 = 0 :=
  ⟨takes_of (by decide +kernel), by decide +kernel⟩

theorem witness_RequestsReceived_stray : let h := (hdr { type := 3, dst := 1 }).toNat
    (net id).linkTakes 0 h {} ∧ (Tx.ofHeader h []).pkt.arrives 3 = true ∧ (net id).expects (Tx.ofHeader h []).pkt = false :=
  ⟨⟨by decide, rfl, by decide +kernel, by decide +kernel⟩, by decide +kernel, by decide +kernel⟩

theorem witness_RequestsReceived_forward : let h := (hdr { via := true, dev := 1 }).toNat
    (net id).linkTakes 0 h {} ∧ (Tx.ofHeader h []).pkt.via = true ∧ (Tx.ofHeader h []).pkt.cls ≤ 1
      ∧ (net id).secondHop (Tx.ofHeader h []).pkt.board (Tx.ofHeader h []).pkt.dev ≠ [] :=
  ⟨⟨by decide, rfl, by decide +kernel, by decide +kernel⟩, by decide +kernel⟩

theorem witness_RequestsReceived_mgmt : let h := (hdr { type := 8, len := 1 }).toNat
    (net id).linkTakes 0 h {} ∧ (Tx.ofHeader h [1]).pkt.type = 8 ∧ [(1 : Byte)].length = (Tx.ofHeader h [1]).pkt.len :=
  ⟨⟨by decide, rfl, by decide +kernel, by decide +kernel⟩, by decide +kernel⟩

/-- A request of a KIND waits for its last answer. -/
def waiting (type left : Nat) : State := net (fun d => d.onFab (fun f => { f with
  tags := [(0, { tag9 with type := type })]
  sends := [(9, { job := 5, kind := type, dst := 1, msg := 0, coll := 0, total := 2, left := left, cut := true })] }))

theorem witness_ResponsesAndCollectives : ∀ x ∈ [((2 : Nat), (1 : Nat), [(1 : Byte), 2]), (5, 4, List.replicate 8 3), (3, 0, [])], ∀ left ∈ [1, 2],
    let h := hdr { type := x.1, len := x.2.2.length }
    takesNow (waiting x.2.1 left) x.1 h x.2.2 = true ∧ ((waiting x.2.1 left).tagFor (Tx.ofHeader h.toNat x.2.2).pkt x.2.1).isSome = true
      ∧ (Tbl.look (waiting x.2.1 left).fab.sends 9).isSome = true := by decide +kernel

theorem witness_ResponsesAndCollectives_land : (waiting 1 1).servesRange 0 8 := serves_range (by decide) (by decide) (by decide)

/-- Collective 2 with the child of ports 0 to 2; here the parent's port is 0, or this device is the root. -/
def colTree (parent : Nat) (f : Fabric → Fabric) : State :=
  net (fun d => ((d.setReg (aFabColl 2 0) (BitVec.ofNat 32 (0xC0010000 + parent))).setReg (aFabColl 2 4) 0x05000000).onFab f)

theorem witness_ResponsesAndCollectives_up : let h := hdr { type := 6, coll := 2, len := 4 }
    let k := (Tx.ofHeader h.toNat [1, 2, 3, 4]).pkt
    takesNow (colTree 15 id) 6 h [1, 2, 3, 4] = true ∧ (colTree 15 id).colValid k.coll k.job = true ∧ inputOf 0 ∈ (colTree 15 id).colKids k.coll
      ∧ ((colTree 15 id).fab.chunks.filter (fun x => x.coll == k.coll && x.input == inputOf 0)).length < 8 := by decide +kernel

def bothIn (f : Fabric) : Fabric := { f with chunks := [⟨2, 0, 0, 0, 5, [1, 0, 0, 0], false⟩, ⟨2, 10, 0, 0, 5, [2, 0, 0, 0], false⟩] }

theorem witness_ResponsesAndCollectives_combine : ∃ l x, (colTree 1 bothIn).colInputs 2 0 = some l ∧ colSum l = some x ∧ l.length = 2
    ∧ Tbl.look (colTree 1 bothIn).fab.cols 2 = none ∧ (colTree 1 bothIn).colRoot 2 = false :=
  ⟨_, _, rfl, rfl, rfl, by decide, by decide⟩

def rootCol : Col := { job := 5, mode := 0, op := 0, len := 8, src := 0, dst := 0x10000, off := 4 }

theorem witness_ResponsesAndCollectives_root : let s := colTree 15 (fun f => { (bothIn f) with cols := [(2, rootCol)] })
    (s.colInputs 2 0).isSome = true ∧ Tbl.look s.fab.cols 2 = some rootCol ∧ s.colRoot 2 = true ∧ s.colLocal 2 = true ∧ rootCol.mode = 0
      ∧ s.fab.landed.getD 2 0 + 4 < rootCol.len ∧ rootCol.off < rootCol.len := by decide

theorem witness_ResponsesAndCollectives_rootLand : (colTree 15 (fun f => { (bothIn f) with cols := [(2, rootCol)] })).servesRange 0x10000 4 :=
  serves_range (by decide) (by decide) (by decide)

theorem witness_ResponsesAndCollectives_down : let h := hdr { type := 7, coll := 2, len := 4, addr := 0x10000 }
    let k := (Tx.ofHeader h.toNat [1, 2, 3, 4]).pkt
    takesNow (colTree 0 id) 7 h [1, 2, 3, 4] = true ∧ (colTree 0 id).colValid k.coll k.job = true ∧ inputOf 0 = (colTree 0 id).fld (aFabColl k.coll 0) 3 0
      ∧ (colTree 0 id).colLocal k.coll = true ∧ k.addr = 0x10000 ∧ Tbl.look (colTree 0 id).fab.cols k.coll = none := by decide +kernel


def ported (p : Port) (tick : Nat) : State := { booted (fun d => d.putPort 23 p) with tick := tick, cycle := 61 }

theorem witness_PortsAndCalendar : let s := ported { up := true, credits := bufFlits, owed := [0, 0, 0, 0, 0, 5] } 0
    s.pw.railHold = false ∧ Tbl.look s.fw.lanesDue 23 = none ∧ (s.port 23).up = true ∧ (s.port 23).window = false ∧ (s.port 23).flitRoom = true ∧ s.crdClass 23 = some 5
      ∧ (s.port 23).lastTx + 61 ≤ s.cycle := by decide

theorem witness_PortsAndCalendar_nak : let s := ported { up := true, nak := true } 0
    (s.port 23).up = true ∧ (s.port 23).window = false ∧ (s.port 23).flitRoom = true ∧ s.crdClass 23 = none ∧ (s.port 23).nak = true := by decide

theorem witness_PortsAndCalendar_link : ∀ op ∈ [0, 1, 2, 3, 4], let h := hdr { type := 15, cls := 7, op := op }
    let s := ported { up := true, credits := bufFlits, master := decide (op = 3), due := 1 } 0
    (s.port 23).up = true ∧ hcrcOk h.toNat = true ∧ bitsN h.toNat 42 31 = ((s.port 23).rxSeq + 1) % 4096 ∧ bitN h.toNat 5 = false
      ∧ (Tx.ofHeader h.toNat []).pkt.type = 15 ∧ (Tx.ofHeader h.toNat []).pkt.cls = 7 ∧ (Tx.ofHeader h.toNat []).pkt.op = op ∧ bitsN h.toNat 18 16 < 6
      ∧ ((s.port 23).master = true ↔ op = 3) ∧ (s.port 23).defers < 4 ∧ s.tick < (s.port 23).due ∧ (s.port 23).window = false := by decide +kernel

theorem witness_PortsAndCalendar_window : ∀ up ∈ [false, true], let s := ported { up := up, training := !up, master := true, due := 9, defers := 4 } 9
    (s.port 23).master = true ∧ (s.port 23).window = false ∧ (s.port 23).due ≤ s.tick ∧ (s.port 23).training = !up ∧ (s.port 23).up = up
      ∧ (s.port 23).flitRoom = true := by decide

theorem witness_PortsAndCalendar_end : ((ported { master := true, window := true } 0).port 23).master = true
    ∧ ((ported { master := true, window := true } 0).port 23).window = true := by decide

theorem witness_PortsAndCalendar_defer : ∀ m ∈ [false, true], let s := ported { up := true, master := m, defers := 3, due := 1 } 0
    s.serves (aSlp 23 0x138) = true ∧ (s.port 23).window = false ∧ (s.port 23).master = m ∧ (s.port 23).defers < 4 ∧ s.tick < (s.port 23).due
      ∧ (s.port 23).up = true ∧ (s.port 23).flitRoom = true := by decide

theorem witness_PortsAndCalendar_retrain : let s := ported { up := true, replays := 255, width := 0 } 0
    (s.port 23).up = true ∧ max 1 (s.fld (aSlp 23 0x104) 15 8) ≤ (s.port 23).replays ∧ (s.port 23).width < s.minWidth 23 ∧ (s.port 23).held = false := by decide

theorem witness_PortsAndCalendar_hold : ((ported { training := true } 312500).port 23).training = true ∧ 0 + 312500 ≤ (ported { training := true } 312500).tick
    ∧ ((ported { held := true } 0).port 23).held = true ∧ ((ported { held := true } 0).port 23).up = false := by decide

theorem witness_PortsAndCalendar_done : let s := ported { training := true } 0
    (s.port 23).training = true ∧ s.minWidth 23 ≤ laneWidth (15 : BitVec 4).toNat ∧ laneWidth (0 : BitVec 4).toNat < s.minWidth 23 := by decide


/-! ## Steps, Owl, Squirrel -/

/-- Job 5 with step control, EXPECT 1 and its gate line at 0x10000. -/
def stepped (gate : Nat) (f : Dev → Dev) : State :=
  net (fun d => f ((((d.setReg (aStepJ 5 4) 0x80000000).setReg (aStepJ 5 0x14) 1).setReg (aStepJ 5 0xC) 0x10000).setReg (aStepJ 5 0x1C) (BitVec.ofNat 32 gate)))

theorem witness_StepsAndGates : (stepped 0 id).serves (aStepJ 5 0) = true ∧ (stepped 0 id).armBad 5 = false ∧ (stepped 0 id).gate 5 ∉ [1, 2, 5, 6]
    ∧ (stepped 0 id).jobQuiet 5 = true ∧ ((stepped 0 id).sqrJob 5).next = none ∧ (stepped 6 id).gate 5 ∈ [1, 2, 5, 6] ∧ (stepped 6 id).armBad 5 = false
    ∧ (stepped 6 id).serves (aStepJ 5 0) = true ∧ (net id).serves (aStepJ 5 0) = true ∧ (net id).armBad 5 = true ∧ (net id).jobQuiet 5 = true
    ∧ (stepped 0 (fun d => d.onCore 0 (fun k => { k with job := some 5, x := { st := .running } }))).jobQuiet 5 = false := by decide

theorem witness_StepsAndGates_line : (stepped 0 id).servesRange ((stepped 0 id).gateLine 5) 128 := serves_range (by decide) (by decide) (by decide)

/-- A directory of two entries of one page at 0, of which the high-water mark admits the first. -/
def stashed : State := net (fun d => { (d.setReg (aStash 5 0x10) 0x20000) with
  armHwm := [(5, 1)], mem := [(0, 64), (16, 64)] })

theorem witness_StepsAndGates_assign : let s := stashed
    let e (i : Nat) : Nat := s.dirAddr 5 + 16 * i
    let bytes (i : Nat) : Nat := ofBytesLE (s.peek (e i) 4) * 64
    let off (i : Nat) : Nat := ((List.range i).map (fun m => roundUp (bytes m) 4096)).sum
    s.clockOn = true ∧ Tbl.look s.armHwm 5 = some 1 ∧ 1 ≤ s.dirCount 5 ∧ (∀ i, i < 1 → s.peekPoison (e i) = false ∧ off i + bytes i ≤ 1 * 4096)
      ∧ (1 < s.dirCount 5 → s.peekPoison (e 1) = true ∨ 1 * 4096 < off 1 + bytes 1) := by decide +kernel

theorem witness_StepsAndGates_directory : stashed.servesRange (stashed.dirAddr 5) (16 * stashed.dirCount 5) := serves_range (by decide) (by decide) (by decide)

theorem witness_StepsAndGates_timeout : let s : State := { stepped 2 id with tick := 0xFFFFFF }
    s.clockOn = true ∧ s.gate 5 = 2 ∧ s.readyT.getD 5 0 + s.fld (aStep 0x100) 23 0 ≤ s.tick := by decide

theorem witness_StepsAndGates_contribution : (0x10000 : BitVec 41).toNat = (stepped 1 id).gateLine 5 ∧ (stepped 1 id).gate 5 = 1
    ∧ (∀ m : JobNo, m ≠ 5 → (stepped 1 id).gateLine m ≠ 0x10000 ∨ (stepped 1 id).gate m = 0) ∧ (List.replicate 64 (0 : Byte)).length = 64
    ∧ (stepped 1 id).peekPoison 0x10000 = false ∧ (stepped 1 id).fld (aStepJ 5 0x18) 23 0 + 1 = (stepped 1 id).fld (aStepJ 5 0x14) 23 0
    ∧ (stepped 1 id).bit (aStepJ 5 4) 30 = false
    ∧ bitN (ofBytesLE ((redBytes 6 ((stepped 1 id).peek 0x10000 64) (List.replicate 64 0)).take 4)) 15 = false := by decide +kernel

theorem witness_StepsAndGates_contribution2 : let s := stepped 1 (fun d => d.setReg (aStepJ 5 0x14) 2)
    s.gate 5 = 1 ∧ s.fld (aStepJ 5 0x18) 23 0 + 1 ≠ s.fld (aStepJ 5 0x14) 23 0 ∧ s.fld (aStepJ 5 0x18) 23 0 + 1 < 2 ^ 24 := by decide

theorem witness_StepsAndGates_block : (stepped 1 id).servesRange (0x10000 : BitVec 41).toNat 64 := serves_range (by decide) (by decide) (by decide)

theorem witness_OwlCommands_stop : (booted id).serves (aOwlJ 0x100) = true ∧ (0x15 : BitVec 8).toNat < 0x16 ∧ (booted id).bit (aOwlJ (0x200 + 4 * 63)) 31 = false
    ∧ Tbl.risesFrom 0 (booted id).cores = true ∧ 0x16 ≤ (0x16 : BitVec 8).toNat := by decide

theorem witness_OwlCommands_again : let s := booted (fun d => d.setReg (aOwlJ (0x200 + 4 * 63)) 0x80150000)
    s.serves (aOwlJ 0x100) = true ∧ s.bit (aOwlJ (0x200 + 4 * 63)) 31 = true ∧ flag (s.eventBits (aOwlJ (0x200 + 4 * 63))) 31 = false := by decide

theorem witness_OwlCommands_fence : let s := booted (fun d => { d with fences := [⟨311, none, false⟩] })
    s.serves (aOwl 0x110) = true ∧ s.fences = [⟨311, none, false⟩] ∧ 311 < 312 := by decide

theorem witness_OwlCommands_interval : let s : State := { booted (fun d => d.setReg (aOwl 0x100) 0x80000000) with tick := 15625 }
    s.pw.railHold = false ∧ s.tick % 15625 = 0 ∧ s.owl.ended < s.tick ∧ s.bit (aOwl 0x100) 31 = true := by decide

theorem witness_OwlCommands_restart : ∀ i : Fin 3, (booted (fun d => d.setReg (aOwl 8) 0)).serves (aOwl (0x118 + 4 * i)) = true
    ∧ (pageOf (aOwl (0x118 + 4 * i))).all (fun p => (booted (fun d => d.setReg (aOwl 8) 0)).quiet p (aOwl 0) (0x118 + 4 * i)) = true := by decide

/-- One page of job 5 registered at 0x20000 with a METHOD; stage pages from 0x400000. -/
def sqrWord (method pages : Nat) : Nat := 2 * 2 ^ 16 + 2 ^ 48 + 5 * 2 ^ 62 + method * 2 ^ 70 + pages * 2 ^ 72 + 2 ^ 96 + 0x200000 * 2 ^ 112 + 0x100000 * 2 ^ 160

def sqrOf (method pages : Nat) (f : Dev → Dev) : State :=
  stepped 0 (fun d => f (((({ d with mem := cellsPut [] 0 (bytesLE 32 (sqrWord method pages)) } : Dev).setReg (aSqr 0x108) 0x10000).setReg (aSqr 0x100) 0x80000008).setReg
    (aSqr 0x114) 0x400000))

def sqr (method : Nat) (f : Dev → Dev) : State := sqrOf method 1 f

theorem witness_StepsAndGates_generation : let s := sqr 1 (fun d => d.setSqrJob 5 { next := some true })
    s.serves (aStepJ 5 0) = true ∧ s.armBad 5 = false ∧ s.gate 5 ∉ [1, 2, 5, 6] ∧ s.jobQuiet 5 = true ∧ (s.sqrJob 5).next = some true ∧ s.sqrOn 5 = true := by
  decide +kernel

theorem witness_SquirrelPages_touch : let w : HeldWrite := { addr := 0x20040, data := [5], poison := false }
    let s := sqr 1 (fun d => ({ d with sqrCopy := [2], sqrHeld := [w] } : Dev).setSqrPage 2 { x := some 1 })
    s.clockOn = true ∧ (2 : BitVec 25).toNat ∈ s.sqrCopy ∧ (s.sqrPage (2 : BitVec 25).toNat).x = some 1
      ∧ s.sqrHeld.filter (fun w => w.addr / 0x10000 == (2 : BitVec 25).toNat) = [w] ∧ w.red = none ∧ w.data ≠ [] ∧ w.addr % 64 + w.data.length ≤ 64
      ∧ s.stageAt 1 ≠ (2 : BitVec 25).toNat * 0x10000 := by decide

theorem witness_SquirrelPages_sound : (sqr 1 id).soundRange (2 * 0x10000) 0x10000 ∧ (sqr 1 id).soundRange ((sqr 1 id).stageAt 1) 0x10000 :=
  ⟨sound (by decide), sound (by decide)⟩

def swept (method : Nat) (p : SqrPage) : State :=
  sqr method (fun d => ((d.setSqrPage 2 p).setSqrJob 5 { st := .running }).onFab id)

theorem witness_SquirrelPages_mirror : ((swept 1 { send := true }).entryOf 2).any (fun e => decide (e.job = 5 ∧ e.method ≠ 2 ∧ e.i = 0)) = true
    ∧ ((swept 1 { send := true }).sqrPage 2).send = true ∧ ((swept 1 { send := true }).sqrJob 5).st = .running
    ∧ (swept 1 { send := true }).sqrUsed.getD ((swept 1 { send := true }).pageDie 2) 0 + 0x10000 ≤ (swept 1 { send := true }).sqrBudget ∧ 2 ∉ (swept 1 { send := true }).sqrCopy
    ∧ (swept 1 { send := true }).sqrOld.getD 0 0 ≠ 2 ∧ ((swept 1 { send := true }).sqrPage 2).o = none := by decide +kernel

theorem witness_SquirrelPages_parity : let s : State := { swept 2 { send := true, o := some 3 } with sqrOld := [(0, 2)] }
    (s.entryOf 2).any (fun e => decide (e.job = 5 ∧ e.method = 2 ∧ e.i = 0)) = true ∧ s.sqrOld.getD 0 0 = 2 ∧ (s.sqrPage 2).o = some 3 ∧ s.ownIndex 5 = some 0 := by
  decide +kernel

theorem witness_SquirrelPages_read : (swept 1 { send := true }).soundRange ((swept 1 { send := true }).pageV 2) 0x10000
    ∧ ∀ i, i < 0x10000 → (swept 1 { send := true }).peekPoison ((swept 1 { send := true }).pageV 2 + i) = false :=
  ⟨sound (by decide +kernel), fun _ _ => clean (by decide) _⟩

/-- An entry of 4,096 pages, which every member may have in its parity. -/
def merging : State := sqrOf 2 4096 (fun d => d.setSqrJob 5 { st := .merging })

theorem witness_SquirrelPages_merge : (merging.sqrJob 5).st = .merging ∧ (merging.jobEntries 5).length = 1
    ∧ (merging.jobEntries 5).all (fun e => decide (merging.ownIndex e.job = some 0) && e.inParity && decide (e.paddr % 64 = 0 ∧ e.paddr = 0x100000 ∧ e.parPages = 586)) = true := by
  decide +kernel

theorem witness_SquirrelPages_banks : merging.soundRange 0x100000 (2 * 586 * 0x10000) := sound (by decide)

theorem witness_SquirrelPages_quantum : ({ core0 with cycle := 1900 } : State).clockOn = true ∧ ({ core0 with cycle := 1900 } : State).sqrQ + 1900 ≤ 1900
    ∧ (sqr 1 (fun d => { d with sqrFt := [(1, 2 ^ 40)] })).sqrBudget < (sqr 1 (fun d => { d with sqrFt := [(1, 2 ^ 40)] })).sqrFt.getD 1 0 := by decide

theorem witness_SquirrelControl : (sqr 1 id).serves (aSqr 0x120) = true ∧ (booted id).sqrOn 5 = false ∧ (booted id).phaseOk 5 = none
    ∧ (booted id).serves (aSqr 0x120) = true := by decide +kernel

theorem witness_SquirrelControl_rollback : let s := sqr 1 (fun d => d.setSqrPage 2 { touched := true, x := some 0 })
    s.sqrOn 5 = true ∧ s.jobRuns 5 = false ∧ (s.sqrJob 5).cannot s.sqrT = false ∧ (s.sqrJob 5).phase = 0 ∧ s.sqrT = (s.sqrJob 5).com ∧ (s.sqrJob 5).st = .idle
      ∧ (∀ e ∈ s.jobEntries 5, e.inParity = false) ∧ (s.jobEntries 5).flatMap SqrEntry.pageNos = [2] ∧ (s.sqrPage 2).version false = some 0
      ∧ s.stageAt 0 / 0x10000 ∉ [2] := by decide +kernel

theorem witness_SquirrelControl_phases : ∀ lost ∈ [0, 7], let s := sqr 2 (fun d => d.setReg (aSqr 0x124) (BitVec.ofNat 32 (lost * 2 ^ 16)))
    s.phaseOk 5 = some 0 ∧ (s.entriesBy 5 2).length = 1 ∧ s.sqrLost = lost
      ∧ (s.entriesBy 5 2).all (fun e => decide (e.paddr % 64 = 0 ∧ e.addr + e.pages * 0x10000 ≤ e.paddr)) = true := by decide +kernel

theorem witness_SquirrelControl_done : let s := sqr 1 (fun d => d.setSqrJob 5 { phase := 6 })
    s.clockOn = true ∧ (s.sqrJob 5).phase ≠ 0 ∧ (∀ h ∈ s.hwSends, h.job = 5 → h.gen = true)
      ∧ (∀ p ∈ s.fab.sends, p.2.hw = true → p.2.job = 5 → p.2.gen = true ∨ p.2.ended = true) := by decide


/-! ## Command streams -/

/-- Queue 0 of job 5 in host memory with one command at HEAD; stream 9 has a RUN of the same job in some state. -/
def cmds (c : Nat) (r : CmdStream) (f : Dev → Dev) : State :=
  booted (fun d => f { ((((d.setReg (aSq 0 0) 0x1001).setReg (aSq 0 8) 0x85000000).setReg (aCmd 0x104) 0x80000000).setReg (aCmdJ 5 0) 0x80000000) with
    hostMem := cellsPut [] 0x1000 (bytesLE 64 c)
    cb := { up := true, bme := true, cached := [7], sqs := [(0, { st := .active, tail := 1 })], streams := [(9, r)] } })

/-- The command of an opcode on stream 7, sequence 1, with its record in host memory, and with the target (9, 3) where it has one. -/
def cmdWord (op : Nat) : Nat :=
  op + 7 * 2 ^ 12 + 2 ^ 32 + 2 ^ 64 + 0x80 * 2 ^ 70 + (if op < 2 then 0 else 9 * 2 ^ 192 + 3 * 2 ^ 256)

def target (st : CmdState) : CmdStream := { job := some 5, last := 3, cmd := 1, st := st, released := false }

theorem witness_CommandsAreAccepted_queue : (booted id).clockOn = true ∧ (booted id).ready = true ∧ (15 : Word).toNat < (booted id).sqSize 0
    ∧ (booted id).sqSize 0 ≤ (16 : Word).toNat ∧ (booted id).serves (aSq 4095 8) = true := by decide

theorem witness_CommandsAreAccepted_fetch : let s := cmds (cmdWord 7) {} id
    HostEnd.timeout ≠ .served ∧ s.cmdTakes = true ∧ s.bit (aSq 0 8) 31 = true ∧ (s.sq 0).st = .active ∧ (s.sq 0).head ≠ (s.sq 0).tail ∧ s.sqHost 0 = true
      ∧ s.cb.up = true ∧ s.cb.bme = true ∧ s.hostRead (s.sqAt 0 (s.sq 0).head) 64 = (cellsAt s.hostMem (s.sqAt 0 (s.sq 0).head) 64, false)
      ∧ s.cmdEncBad (ofBytesLE (cellsAt s.hostMem (s.sqAt 0 (s.sq 0).head) 64)) = true := by decide +kernel

theorem witness_CommandsAreAccepted_next : ∀ op ∈ [0, 1, 2, 3, 4, 5], ∀ st ∈ [CmdState.queued, .running, .suspending, .suspended, .done],
    let s := cmds (cmdWord op) (target st) id
    s.acceptsNext 0 (cmdWord op) ∧ cmdOp (cmdWord op) = op ∧ cmdOp (s.strm 9).cmd = 1 ∧ (s.strm 9).st = st := by
  simp only [Dev.acceptsNext]; decide +kernel

theorem witness_CommandsAreAccepted_release : (cmds (cmdWord 6) (target .failed) id).acceptsNext 0 (cmdWord 6)
    ∧ cmdOp (cmdWord 6) = 6 ∧ cmdArg (cmdWord 6) 0 % 2 ^ 20 = 9 := by
  simp only [Dev.acceptsNext]; decide +kernel

def heldCmd (seq : Nat) : HeldCmd := ⟨7, seq, cmdWord 0 + (seq - 1) * 2 ^ 32, 5, 0⟩
def holding (h : HeldCmd) : State := cmds 0 {} (fun d => { d with cb := { d.cb with hold := [h] } })

theorem witness_CommandsAreAccepted_held : let s := holding (heldCmd 1)
    s.cb.hold.find? (fun y => y.stream == 7 && y.seq == seqSucc (s.strm 7).last) = some (heldCmd 1) ∧ s.cmdTakes = true ∧ (s.strm 7).takes (heldCmd 1).cmd = true
      ∧ cmdStream (heldCmd 1).cmd = 7 ∧ s.cmdJobBad (heldCmd 1).cmd 5 = false ∧ s.cmdTargetBad (heldCmd 1).cmd 5 = false := by decide +kernel

theorem witness_CommandsAreAccepted_gap : let s := holding (heldCmd 2)
    s.cb.hold.find? (fun y => y.stream == 7 && y.seq == (2 : BitVec 32).toNat) = some (heldCmd 2) ∧ s.isGap (heldCmd 2) = true ∧ (heldCmd 2).left = 0
      ∧ s.cb.up = true ∧ s.cb.bme = true := by decide +kernel

/-- Stream 9's command, and the floor plan that maps logical core 0 to core 0. -/
def runs (r : CmdStream) (f : Core → Core) : State :=
  cmds 0 { r with job := some 5, last := 3, released := false } (fun d => (d.setReg (aFp 0x250) 0x8000).onCore 0 (fun k => f { k with job := some 5 }))

def lcore : LaunchCore := ⟨0, 0, 0, 0, 0, 1, false, 0⟩

theorem witness_CommandsRunAndComplete : let s := runs { cmd := 1, st := .queued, cores := [lcore] } id
    s.clockOn = true ∧ s.ready = true ∧ s.cb.up = true ∧ s.cb.bme = true ∧ (s.strm 9).job.isSome = true ∧ cmdOp (s.strm 9).cmd = 1 ∧ (s.strm 9).st = .queued
      ∧ s.runDue (s.strm 9) = true ∧ (s.strm 9).image = false
      ∧ ((s.strm 9).cores.map (fun l => (s.physOf l.lcore).getD 0x1FF)) = [0] ∧ (s.core 0).job = (s.strm 9).job := by decide +kernel

/-- A core in another job; an image that fits. -/
theorem witness_CommandsRunAndComplete_other : (let s := runs { cmd := 1, st := .queued, cores := [lcore] } (fun k => { k with job := none })
      s.runDue (s.strm 9) = true ∧ (s.core 0).job ≠ (s.strm 9).job)
    ∧ (let s : State := (runs { cmd := 1, st := .queued, image := true, cores := [lcore] } id).onDev (fun d =>
          { d with mem := cellsPut [] 0 ([1, 0, 0, 0, 0, 0, 0, 0] ++ bytesLE 4 (d.reg (aPln 0 0x100)).toNat ++ [0, 5]) })
       s.runDue (s.strm 9) = true ∧ (s.strm 9).image = true ∧ s.restoreCheck 0 lcore.ctx = 0) := by decide +kernel

theorem witness_CommandsRunAndComplete_done : let s := runs { cmd := 1, st := .running, cores := [lcore] } (fun k => { k with x := { st := .halted }, a := { st := .halted } })
    cmdOp (s.strm 9).cmd = 1 ∧ (s.strm 9).st = .running ∧ (∀ l ∈ (s.strm 9).cores, (s.core l.phys).ctx = none ∧ ∀ e, ((s.core l.phys).stream e).st = .halted) := by
  decide +kernel

theorem witness_CommandsRunAndComplete_suspended : ∀ b ∈ [(false, false), (true, false), (false, true)],
    let s := runs { cmd := 1, st := .suspending, pendCancel := b.1, pendResume := b.2, cores := [lcore] } id
    (s.strm 9).st = .suspending ∧ (∀ l ∈ (s.strm 9).cores, (s.core l.phys).ctx = none) ∧ (∀ l ∈ (s.strm 9).cores, s.fld (aCctl l.phys 0x114) 15 8 = 0)
      ∧ (s.strm 9).pendCancel = b.1 ∧ (s.strm 9).pendResume = b.2 := by decide +kernel

theorem witness_CommandsRunAndComplete_unsaved : let s : State := (runs { cmd := 1, st := .suspending, cores := [lcore] } id).onDev (fun d => d.setReg (aCctl 0 0x114) 0x900)
    (s.strm 9).st = .suspending ∧ (∀ l ∈ (s.strm 9).cores, (s.core l.phys).ctx = none) ∧ (∃ l ∈ (s.strm 9).cores, s.fld (aCctl l.phys 0x114) 15 8 ≠ 0) := by
  refine ⟨by decide +kernel, by decide +kernel, lcore, by decide +kernel, by decide +kernel⟩

theorem witness_CommandsRunAndComplete_cancelled : let s := runs { cmd := 1, st := .cancelling, cores := [lcore] } id
    (s.strm 9).st = .cancelling ∧ (∀ l ∈ (s.strm 9).cores, (s.core l.phys).inReset = false) := by decide +kernel

theorem witness_CommandsRunAndComplete_control : ∃ res, let s := runs { cmd := 2, st := .queued, out := some (5, 0) } id
    (s.strm 9).job.isSome = true ∧ (s.strm 9).st = .queued ∧ 2 ≤ cmdOp (s.strm 9).cmd ∧ s.controlDone (s.strm 9) = some res := ⟨0x500, by decide +kernel⟩

theorem witness_CommandsRunAndComplete_scan : let s := cmds 0 (target .running) (fun d => { d with cb := { d.cb with scanning := true } })
    s.cb.scanning = true ∧ s.cb.recovering = false ∧ s.bit (aRst 0x10C) 0 = false ∧ Tbl.risesFrom 0 s.cb.streams = true ∧ (s.strm 9).st = .running := by decide +kernel

/-- A running and a finished command of job 5; a free stream. -/
theorem witness_JobResetCancelsCommands : ∀ st ∈ [CmdState.running, .done], let s := cmds 0 (target st) id
    s.serves (aRst 0x108) = true ∧ s.bit (aRst 0x10C) 0 = false ∧ s.pw.jobRst.contains (5 : JobNo).val = false ∧ Tbl.risesFrom 0 s.cb.streams = true
      ∧ (s.strm 9).job = some (5 : JobNo).val ∧ (s.strm 9).st.terminal = decide (st = .done)
      ∧ s.serves (aCmd 0x148) = true ∧ (s.strm 7).released = true ∧ (∀ h ∈ s.cb.hold, h.stream ≠ 7) := by decide

theorem witness_JobResetCancelsCommands_busy : (holding (heldCmd 2)).serves (aCmd 0x148) = true ∧ (∃ h ∈ (holding (heldCmd 2)).cb.hold, h.stream = 7)
    ∧ ((cmds 0 (target .running) id).strm 9).released = false := ⟨by decide, ⟨heldCmd 2, by decide, by decide⟩, by decide⟩

theorem witness_JournalJobsAndCalendar : (let s := booted (fun d => { d with cb := { d.cb with paused := true } })
      s.serves (aCmd 0x104) = true ∧ s.cb.paused = true ∧ s.bit (aCmd 0x104) 31 = false ∧ s.serves (aCmd 0x100) = true ∧ s.cb.copying = false
        ∧ s.jrnReplaced = none)
    ∧ (booted (fun d => { d with cb := { d.cb with zeroing := true } })).cb.zeroing = true := by decide

/-- Copy 1 lost and replaced. -/
theorem witness_JournalJobsAndCalendar_copy : ∀ b ∈ [false, true], let s := booted (fun d =>
      { ((d.setReg (aCmd 0x118) 1).setReg (aCmd 0x104) 0x80000000) with cb := { d.cb with paused := true, copying := b, rebased := [1] } })
    s.clockOn = true ∧ s.ready = true ∧ s.cb.copying = b ∧ s.jrnReplaced = some 1 ∧ s.cb.paused = true ∧ s.bit (aCmd 0x104) 31 = true := by decide

theorem witness_JournalJobsAndCalendar_join : let s := booted (fun d => (d.setReg (aFp 0x250) 0x8000).setReg (aFwl 0x180) 0)
    s.serves (aCmdJ 5 (8 + 4 * 0)) = true ∧ s.physOf (32 * 0 + 0) = some 0 ∧ (∀ x, x < 32 → x ≠ 0 → s.physOf (32 * 0 + x) ≠ some 0)
      ∧ flag (1 : Word) 0 = true ∧ (s.core 0).job = none ∧ (s.core 0).clearing = none ∧ s.fenced 0 = false ∧ s.bit (aFwl (0x180 + 0 / 32 * 4)) (0 % 32) = false := by
  decide +kernel

theorem witness_JournalJobsAndCalendar_leave : let s := booted (fun d => ((d.setReg (aFp 0x250) 0x8000).setReg (aCmdJ 5 8) 1).onCore 0 (fun k => { k with job := some 5 }))
    flag (0 : Word) 0 = false ∧ s.bit (aCmdJ 5 (8 + 4 * 0)) 0 = true ∧ (∀ e, ((s.core 0).stream e).st = .idle ∨ ((s.core 0).stream e).st = .halted)
      ∧ s.heldByRun 0 = false := by decide +kernel

/-- Calendar entry 63 enabled for stream 9, with its first slot due; the command there is queued for it, or is not. -/
def calState (r : CmdStream) (c : CalRec) (tick : Nat) : State :=
  { cmds 0 r (fun d => { (d.setReg (aCal 63 0) 0x80000009) with cb := { d.cb with cal := [(63, c)] } }) with tick := tick }

theorem witness_JournalJobsAndCalendar_slot : let s := calState { target .queued with cmd := 2 ^ 10 + 1 } {} 5
    s.clockOn = true ∧ s.ready = true ∧ s.bit (aCal 63 0) 31 = true ∧ (s.tick % 2 ^ 32 + 2 ^ 32 - s.calTick 63 (s.calRec 63).k) % 2 ^ 32 < 2 ^ 31
      ∧ s.calOf (s.fld (aCal 63 0) 19 0) = some 63 ∧ (s.strm 9).job.isSome = true ∧ (s.strm 9).st = .queued ∧ bitN (s.strm 9).cmd 10 = true ∧ (s.strm 9).slotT = none := by
  decide +kernel

theorem witness_JournalJobsAndCalendar_lost : ((calState (target .done) {} 5).strm 9).st ≠ .queued
    ∧ (calState (target .done) {} 5).calOf ((calState (target .done) {} 5).fld (aCal 63 0) 19 0) = some 63 := by decide +kernel

theorem witness_JournalJobsAndCalendar_deadline : let s := calState (target .running) { open_ := some (3, 0) } 0xFFFFFF
    s.clockOn = true ∧ s.ready = true ∧ (s.calRec 63).open_ = some (3, 0) ∧ 0 + s.fld (aCal 63 0x10) 23 0 ≤ s.tick := by decide +kernel


/-! ## The host -/

/-- The device from READY on, with a link up; 4 poisoned bytes at 0x100 where p. -/
def hosted (p : Bool) : State := booted (fun d => { d with cb := { d.cb with up := true, bme := true, bar2 := 30 }, poison := if p then [(d.hbmKey 0x100) / 64] else [] })

theorem witness_HostReachesHbm : ∀ p ∈ [false, true], (hosted p).clockOn = true ∧ (hosted p).bit (aRst 0x10C) 0 = false
    ∧ (0x100 : BitVec 41).toNat + (4 : BitVec 13).toNat ≤ 2 ^ (hosted p).cb.bar2 ∧ (hosted p).ready = true
    ∧ (hosted p).peekPoisonN ((hosted p).bar2Base + (0x100 : BitVec 41).toNat) (4 : BitVec 13).toNat = p := by decide

theorem witness_HostReachesHbm_serves : (hosted false).servesRange 0x100 4 ∧ (hosted true).servesRange 0x100 4
    ∧ (hosted false).bar2Base = 0 := ⟨serves_range (by decide) (by decide) (by decide), serves_range (by decide) (by decide) (by decide), by decide⟩

/-- The last bytes of the window; one byte past it; before READY. -/
theorem witness_HostReachesHbm_edge : (0x3FFFFFFC : BitVec 41).toNat + 4 ≤ 2 ^ (hosted false).cb.bar2 ∧ 2 ^ (hosted false).cb.bar2 < (0x3FFFFFFD : BitVec 41).toNat + 4
    ∧ (rig id).ready = false ∧ (rig id).clockOn = true ∧ (rig id).bit (aRst 0x10C) 0 = false ∧ 4 + 4 ≤ 2 ^ (rig id).cb.bar2 := by decide

theorem witness_HostReachesHbm_atomic : ((hosted false).bar2Base + (0x100 : BitVec 41).toNat) % AtomicSize.w64.bytes = 0
    ∧ (hosted false).servesBlock ((hosted false).bar2Base + (0x100 : BitVec 41).toNat) ∧ (hosted false).peekPoison ((hosted false).bar2Base + (0x100 : BitVec 41).toNat) = false
    ∧ (0x100 : BitVec 41).toNat + AtomicSize.w128.bytes ≤ 2 ^ (hosted false).cb.bar2 := ⟨by decide, serves (by decide), by decide⟩

theorem witness_HostReachesHbm_move : let e : DmaDesc := { desc with bytes := bytesLE 64 (3 * 2 ^ 288) }
    let s := dma { descs := [desc, e] } id
    s.clockOn = true ∧ (s.chan 63).mayMove 1 = some e ∧ dmaSrcHost e.w = true := by decide +kernel

theorem witness_HostReachesHbm_ring : let s := dma { st := .active } (fun d => d.setReg (aDmaC 63 0) 5)
    s.dmaMayFetch 63 = true ∧ s.dmaRingHost 63 = true := by decide +kernel

theorem witness_HostReachesHbm_queue : let s := cmds (cmdWord 7) {} id
    s.cmdTakes = true ∧ s.bit (aSq 0 8) 31 = true ∧ (s.sq 0).st = .active ∧ (s.sq 0).head ≠ (s.sq 0).tail ∧ s.sqHost 0 = true := by decide +kernel

/-! ## Power -/

theorem witness_PowerStatesAndWakes : (∀ n ∈ [0, 4], ({ rig (fun d => { d with pw := { d.pw with cur := n } }) with tick := 2 ^ 64 - 1 } : State).pw.cur ≤ 4)
    ∧ (booted id).serves (aAon 0x100) = true := by decide

/-- Idle long enough for A4, with nothing that holds the device; and not idle. -/
theorem witness_PowerStatesAndWakes_down : (let s := booted (fun d => { ((d.setReg (aPwr 0x108) 4).setReg (aPwr 0x104) 12000) with pw := { d.pw with idle := 1000000 } })
      s.isIdle = true ∧ s.pw.leaving = false ∧ s.powerTarget (s.pw.idle + 1) = 4 ∧ s.pw.cur < 3)
    ∧ (booted (fun d => d.setCore 0 { x := { st := .running } })).isIdle = false := by decide +kernel

theorem witness_PowerStatesAndWakes_wake : ∀ n ∈ [1, 4], let s : State := { rig (fun d => { (d.setReg (aAon 0x114) 7) with pw := { d.pw with cur := n } }) with tick := 2 ^ 32 + 7 }
    s.pw.cur ≠ 0 ∧ s.pw.leaving = false ∧ s.reg (aAon 0x114) ≠ 0 ∧ s.tick % 2 ^ 32 = (s.reg (aAon 0x114)).toNat := by decide

theorem witness_PowerStatesAndWakes_still : (rig id).pw.cur = 0 ∧ (rig id).reg (aAon 0x114) = 0 := by decide

theorem witness_PowerStatesAndWakes_exit : ∀ n ∈ [2, 3, 4], (rig (fun d => { d with pw := { d.pw with cur := n, leaving := true } })).pw.leaving = true
    ∧ (rig (fun d => { d with pw := { d.pw with cur := n, leaving := true } })).pw.cur = n := by decide

/-! ### The leave arbiter -/

/-- A budget of 100 tokens, with requests and grants. -/
def leaves (q : List LeaveReq) (g : List LeaveGrant) : State := rig (fun d => { d with leaveQ := q, grants := g, budget := 100 })

theorem witness_LeaveArbiter : (leaves [] []).kept ≤ 16 * (10 * (leaves [] []).fld (aPwr 0x100) 7 0 - 0 - (leaves [] []).fld (aPwr 0x110) 9 0)
    ∧ (let r : LeaveReq := { core := 311, plane := 2, tokens := 100, tick := 0 }
       (leaves [r] []).leaveQ = r :: [] ∧ (leaves [r] []).leaveFits r = true) := by decide

theorem witness_LeaveArbiter_timeout : ∀ n ∈ [100, 101], let r : LeaveReq := { core := 311, plane := 2, tokens := n, tick := 5 }
    let s : State := { leaves [r] [{ core := 0, plane := 0, tokens := 100 }] with tick := 5 + (leaves [] []).fld (aPwr 0x114) 15 0 }
    s.leaveQ.find? (fun x => x.core == (311 : CoreNo).val && x.plane == (2 : PlaneNo).val) = some r ∧ r.tmo = false ∧ r.tick + s.fld (aPwr 0x114) 15 0 ≤ s.tick := by decide

theorem witness_LeaveArbiter_return : let s : State := { (leaves [] [{ core := 311, plane := 2, tokens := 9 }]).onDev (fun d =>
      d.setCore 311 (({} : Core).setEdge 2 { tokens := 9, busyAt := 3 })) with cycle := 3 + (rig id).fld (aPwr 0x108) 31 16 }
    ((s.core 311).edge 2).tokens ≠ 0 ∧ ((s.core 311).edge 2).revoked = false ∧ (∀ x ∈ subPlanes 2, (s.core 311).injecting x = none)
      ∧ ((s.core 311).edge 2).busyAt + s.fld (aPwr 0x108) 31 16 ≤ s.cycle := by decide

/-! ### Clocks -/

/-- The average one above, and at, PWR_CAP; the lowest step and the one above it. -/
theorem witness_ClocksAndTemperature : ∀ n ∈ [7, 8], let s := rig (fun d => d.setReg (aClk 0x104) (BitVec.ofNat 32 n))
    s.clkStep = n ∧ s.capW < s.capW + 1 ∧ s.pw.pace < 15 ∧ s.tempLim ≤ s.tempLim ∧ s.fld (aPwr 0x118) 15 8 ≤ 200 ∧ (0 : Nat) < s.tempLim ∧ (0 : Nat) < s.fld (aPwr 0x118) 15 8 := by
  decide

theorem witness_ClocksAndTemperature_up : let s := rig (fun d => d.setReg (aClk 0x104) 8)
    s.clkStep ≠ 0 ∧ s.pw.pace = 0 ∧ 0 ≤ s.capW ∧ 0 < s.tempLim := by decide

theorem witness_ClocksAndTemperature_pll : (rig id).bit (aRst 0x10C) 0 = false
    ∧ ((rig (fun d => d.putPort 13 { up := true })).toDev.port (13 : PortNo).val).up = true ∧ (13 : PortNo).val / 12 = (1 : Fin 2).val := by decide

/-! ## Resets -/

theorem witness_ResetsAndWhatTheyKeep : (rig id).pw.railHold = false ∧ (booted id).serves (aRst 0x100) = true ∧ Machine.fld (0xFFFFA5C3 : Word) 15 0 = 0xA5C3
    ∧ Machine.fld (0xA5C2 : Word) 15 0 ≠ 0xA5C3 ∧ (booted id).bit (aRst 0x10C) 0 = false ∧ (booted (fun d => d.setReg (aRst 0x10C) 1)).bit (aRst 0x10C) 0 = true
    ∧ (booted (fun d => d.setReg (aRst 0x10C) 1)).serves (aRst 0x100) = true := by decide

theorem witness_ResetsAndWhatTheyKeep_rails : (20 : Nat) < 21 ∧ Rail.other ≠ Rail.aon ∧ (1000 : Nat) ≤ 1000 ∧ (rig (fun d => { d with pw := { d.pw with railHold := true } })).pw.railHold = true := by
  decide

/-- A core and a command of the job reset; a job whose reset runs. -/
theorem witness_ResetsAndWhatTheyKeep_job : (let s := runs { cmd := 1, st := .running, cores := [lcore] } id
      s.serves (aRst 0x108) = true ∧ s.bit (aRst 0x10C) 0 = false ∧ s.pw.jobRst.contains (5 : JobNo).val = false ∧ (s.core 0).job = some (5 : JobNo).val
        ∧ (s.strm 9).job = some (5 : JobNo).val)
    ∧ (booted (fun d => { d with pw := { d.pw with jobRst := [5] } })).pw.jobRst.contains (5 : JobNo).val = true := by decide

theorem witness_ResetsAndWhatTheyKeep_core : (booted id).serves (aRst 0x104) = true ∧ ((booted id).core 311).inReset = false
    ∧ ((booted (fun d => d.setCore 311 { inReset := true })).core 311).inReset = true ∧ (∃ off, off < 0x4000 ∧ coreKept 311 (aCctl 311 off) = false ∧ off ≠ 8) := by
  refine ⟨by decide, by decide, by decide, 0x114, by decide⟩

/-! ## Boot and firmware -/

/-- At a boot stage, with a loader. -/
def boots (n : Nat) (f : Firmware) : State := rig (fun d => { (d.setReg (aFwl 0x100) (BitVec.ofNat 32 n)) with fw := f })

/-- SHA-256 of nothing (FIPS 180-4). -/
def noDigest : List Byte :=
  [0xE3, 0xB0, 0xC4, 0x42, 0x98, 0xFC, 0x1C, 0x14, 0x9A, 0xFB, 0xF4, 0xC8, 0x99, 0x6F, 0xB9, 0x24, 0x27, 0xAE, 0x41, 0xE4, 0x64, 0x9B, 0x93, 0x4C, 0xA4, 0x95, 0x99, 0x1B, 0x78, 0x52, 0xB8, 0x55]

theorem test_sha256_empty : sha256 [] = noDigest := by decide +kernel

/-- SHA-256 of "abc", the standard's own example. -/
theorem test_sha256_abc : sha256 [0x61, 0x62, 0x63] =
    [0xBA, 0x78, 0x16, 0xBF, 0x8F, 0x01, 0xCF, 0xEA, 0x41, 0x41, 0x40, 0xDE, 0x5D, 0xAE, 0x22, 0x23, 0xB0, 0x03, 0x61, 0xA3, 0x96, 0x17, 0x7A, 0x9C, 0xB4, 0x10, 0xFF, 0x61, 0xF2, 0x00, 0x15, 0xAD] := by decide +kernel

/-- A manifest with an SVN and three empty components, whose digests are right where b; 16,384 bytes. -/
@[irreducible] def manBytes (svn : Nat) (b : Bool) : List Byte :=
  let comp (t : Nat) : List Byte := bytesLE 4 t ++ List.replicate 12 0 ++ (if b then noDigest else List.replicate 32 0)
  bytesLE 4 0x314D544C ++ bytesLE 4 1 ++ bytesLE 4 16384 ++ bytesLE 4 svn ++ bytesLE 8 7 ++ bytesLE 4 0 ++ bytesLE 4 3
    ++ List.replicate 32 0 ++ comp 1 ++ comp 2 ++ comp 3 ++ List.replicate 16176 0

def man (b : Bool) : Manifest := parseManifest (manBytes 0 b)

theorem man_length : (manBytes 0 true).length = 16384 := by decide +kernel

/-- A table that lists the bytes of a list from a key on. -/
def listed : Nat → List Byte → List Host.Cell
  | _, [] => []
  | n, b :: t => (n, b) :: listed (n + 1) t

theorem look_listed (l : List Byte) : ∀ n x, Tbl.look (listed n l) x = if n ≤ x then l[x - n]? else none := by
  induction l with
  | nil => intro n x; simp [listed]
  | cons b t ih =>
    intro n x
    simp only [listed, Tbl.look, ih]
    by_cases h : x = n
    · subst h; simp
    · rw [if_neg h]
      by_cases h2 : n ≤ x
      · rw [if_pos (by omega), if_pos h2, show x - n = (x - (n + 1)) + 1 by omega]; simp
      · rw [if_neg (by omega), if_neg h2]

/-- The flash holds a list from 0 on. -/
theorem flash_listed {d : Dev} {l : List Byte} {n : Nat} (h0 : d.fw.flash = listed 0 l) (h : l.length = n) : d.flashImage n = l := by
  subst h
  apply List.ext_getElem
  · simp [Dev.flashImage]
  · intro i h1 h2
    simp [Dev.flashImage, Dev.flashAt, h0, Tbl.getD, look_listed, List.getElem?_eq_getElem h2]

theorem witness_BootStages_fuse : (boots 0 {}).clockOn = true ∧ (boots 0 {}).fw.fuseOk = false ∧ (boots 0 {}).stage ≤ 1
    ∧ (boots 1 { fuseFails := 1 }).fw.fuseOk = false ∧ (boots 1 { fuseFails := 1 }).stage ≤ 1 ∧ 1 ≤ (boots 1 { fuseFails := 1 }).fw.fuseFails := by decide

/-- Waiting for the manifest; a recovery asked for; a blank flash. -/
theorem witness_BootStages_manifest : ∀ b ∈ [false, true], let s := boots 1 { fuseOk := true, recover := b }
    s.clockOn = true ∧ s.fw.fuseOk = true ∧ s.stage = 1 ∧ s.fw.recover = b ∧ s.manifestBad (s.flashImage 16384) = some .form := by decide +kernel

theorem man_ok {d : Dev} (h2 : d.tru.slot = 4) (h4 : d.tru.minSvn = 0) : d.manifestBad (manBytes 0 true)
    = (if Config.lmsVerify [] (sigField (manBytes 0 true) 4096) ((manBytes 0 true).take 4096) then none else some .sig) := by
  have h : manifestForm (manBytes 0 true) = true := by decide +kernel
  have h3 : (parseManifest (manBytes 0 true)).svn = 0 := by decide +kernel
  unfold Dev.manifestBad Dev.sigsOk
  rw [h, h2, h3, h4]
  cases Config.lmsVerify [] (sigField (manBytes 0 true) 4096) ((manBytes 0 true).take 4096) <;> simp

/-- A flash with a manifest: accepted where Palrek's signature verifies, refused for it where not. -/
theorem witness_BootStages_signed : let s := boots 1 { fuseOk := true, flash := listed 0 (manBytes 0 true) }
    s.fw.fuseOk = true ∧ s.stage = 1 ∧ s.fw.recover = false
      ∧ s.manifestBad (s.flashImage 16384) = (if Config.lmsVerify [] (sigField (manBytes 0 true) 4096) ((manBytes 0 true).take 4096) then none else some .sig) := by
  refine ⟨by decide, by decide, by decide, ?_⟩
  rw [show Dev.flashImage _ 16384 = manBytes 0 true from
    flash_listed (d := (boots 1 { fuseOk := true, flash := listed 0 (manBytes 0 true) }).toDev) (l := manBytes 0 true) rfl man_length]
  exact man_ok (by decide) (by decide)

/-- Components that match, and that do not. -/
theorem witness_BootStages_comps : ∀ b ∈ [false, true], let s := boots 2 { man := some (man b), pushed := true }
    s.stage = 2 ∧ s.fw.man.isSome = true ∧ s.fw.pushed = true
      ∧ (([1, 2].filterMap (fun n => s.fw.man.bind (fun m => m.comp n))).all (compOk s.bootImage) = b)
      ∧ (([3, 4, 5].filterMap (fun n => s.fw.man.bind (fun m => m.comp n))).all (compOk s.bootImage) = b) := by decide +kernel

theorem witness_BootStages_train : (boots 3 {}).clockOn = true ∧ (boots 3 {}).stage = 3 ∧ (boots 3 {}).fw.pushed = false := by decide

theorem witness_BootStages_load : (boots 4 { badCores := [1] }).stage = 4 ∧ (311 : CoreNo).val ∉ (boots 4 { badCores := [1] }).fw.badCores := by decide

/-- Rounds 7 and 8 of core 311. -/
theorem witness_BootStages_rounds : ∀ n ∈ [6, 7], let s := boots 5 { missing := [(311, [2, 5])], rounds := [(311, n)] }
    Tbl.look s.fw.missing (311 : CoreNo) = some [2, 5] ∧ s.fw.rounds.getD (311 : CoreNo) 0 + 1 = n + 1
      ∧ [2, 5].filter (fun k => ([] : List Nat).contains k) = [] ∧ [2, 5].filter (fun k => [5].contains k) ≠ [] := by decide

theorem witness_BootStages_qualify : let s := boots 5 { lanes := [(0, 15), (1, 1)] }
    s.stage = 5 ∧ s.fw.missing = [] ∧ s.minWidth 0 ≤ laneWidth 15 ∧ laneWidth 0 < s.minWidth 2 := by decide

theorem witness_BootStages_peer : ∀ n ∈ [6, 7, 8], let s := (boots n {}).onDev (fun d => d.putPort 23 { up := true })
    6 ≤ s.stage ∧ s.stage ≤ 8 ∧ (s.port 23).up = true := by decide

theorem witness_BootStages_ready : ∀ n ∈ [6, 7], (boots n {}).clockOn = true ∧ (boots n {}).stage = n := by decide

/-- A staged image of some length. -/
def staged (n : Nat) (f : Firmware) : State := booted (fun d => { (d.setReg (aFwl 0x118) (BitVec.ofNat 32 n)) with fw := f })

theorem witness_FirmwareCommands : ∀ b ∈ [false, true], (staged 0 { writing := b, verified := true }).serves (aFwl 0x110) = true
    ∧ (staged 0 { writing := b, verified := true }).fw.writing = b ∧ (staged 0 { writing := b, verified := true }).pw.railHold = false := by decide

/-- The longest image that HBM may hold for staging, and one byte more. -/
theorem witness_FirmwareCommands_stage : (staged 4194304 {}).stageLen ≤ 4194304 ∧ 4194304 < (staged 4194305 {}).stageLen
    ∧ (let s := staged 64 {}; s.soundRange (s.addr48 (aFwl 0x11C) (aFwl 0x120) 12) s.stageLen ∧ s.peekPoisonN (s.addr48 (aFwl 0x11C) (aFwl 0x120) 12) s.stageLen = false)
    ∧ (let s : State := (staged 64 {}).onDev (fun d => { d with poison := [0] })
       s.soundRange (s.addr48 (aFwl 0x11C) (aFwl 0x120) 12) s.stageLen ∧ s.peekPoisonN (s.addr48 (aFwl 0x11C) (aFwl 0x120) 12) s.stageLen = true) :=
  ⟨by decide, by decide, ⟨sound (by decide), by decide⟩, ⟨sound (by decide), by decide⟩⟩

theorem cellAt_listed (l : List Byte) (x : Nat) : cellAt (listed 0 l) x = l.getD x 0 := by
  simp [cellAt, Tbl.getD, look_listed, List.getD, memDefault]

theorem stage_listed {d : Dev} {l : List Byte} (h0 : d.fw.stage = listed 0 l) (h : l.length = d.stageLen) : d.stageImage d.stageLen = l := by
  rw [← h, Dev.stageImage, h0]
  apply List.ext_getElem
  · simp [cellsAt]
  · intro i h1 h2
    simp [cellsAt, cellAt_listed, List.getElem?_eq_getElem h2, List.getD]

theorem stage_ok {d : Dev} (h0 : d.fw.stage = listed 0 (manBytes 0 true)) (h1 : d.stageLen = 16384) (h2 : d.tru.slot = 4) (h3 : d.tru.minSvn = 0) :
    d.stageBad = (if Config.lmsVerify [] (sigField (manBytes 0 true) 4096) ((manBytes 0 true).take 4096) then none else some .sig) := by
  have h4 : (parseManifest (manBytes 0 true)).comps.all (compOk (manBytes 0 true)) = true := by decide +kernel
  have h5 := man_ok (d := d) h2 h3
  have h6 := stage_listed (d := d) h0 (by rw [man_length, h1])
  generalize manBytes 0 true = l at h4 h5 h6 ⊢
  unfold Dev.stageBad
  simp only [h6, h5, h4]
  cases Config.lmsVerify [] (sigField l 4096) (l.take 4096) <;> rfl

/-- A staged manifest whose components match: verified where Palrek's signature verifies; with none staged it is no manifest. -/
theorem witness_FirmwareCommands_verify : (staged 16384 { stage := listed 0 (manBytes 0 true) }).stageBad
      = (if Config.lmsVerify [] (sigField (manBytes 0 true) 4096) ((manBytes 0 true).take 4096) then none else some .sig)
    ∧ (staged 0 {}).stageBad = some .form :=
  ⟨stage_ok rfl (by decide) (by decide) (by decide), by decide +kernel⟩

theorem witness_FirmwareCommands_activate : (∀ n ∈ [0xE, 8], let s : State := (staged 0 { verified := true }).onDev (fun d => d.setF (aFwl 0x100) 3 0 n)
      s.serves (aFwl 0x110) = true ∧ s.fw.writing = false ∧ s.fw.verified = true ∧ s.stage = n)
    ∧ 3 ∈ changedComps (some (man false)) (man true) := by decide +kernel

theorem witness_FirmwareCommands_reload : let s := staged 0 { coresDue := [311] }
    s.clockOn = true ∧ s.fw.coresDue.contains (311 : CoreNo).val = true ∧ (s.core 311).job = none ∧ s.fenced 311 = false ∧ allCores.any s.loading = false := by decide +kernel

/-! ## Trust -/

/-- The buffer at 0x10000, with bytes there. -/
def trusts (t : Trust) (l : List Byte) : State :=
  booted (fun d => { (d.setReg (aTru 0x114) 0x10000) with tru := t, mem := cellsPut [] (d.hbmKey 0x10000) l })

theorem witness_TrustCommands : ∀ b ∈ [false, true], let s := trusts { erased := b, sess := some 3 } []
    s.serves (aTru 0x11C) = true ∧ s.tru.erased = b ∧ s.tru.sess = some 3 ∧ s.truBuf = 0x10000 ∧ s.peekPoisonN s.truBuf 32 = false ∧ s.tru.sessLeaf < 1023 := by decide

theorem witness_TrustCommands_reads : (trusts {} []).soundRange (trusts {} []).truBuf 16384 ∧ (trusts {} []).soundRange (trusts {} []).truBuf 32
    ∧ (trusts {} []).servesRange (trusts {} []).truBuf 5988 ∧ (trusts {} []).servesRange (trusts {} []).truBuf 32
    ∧ ∀ n, (trusts {} []).peekPoisonN (trusts {} []).truBuf n = false :=
  ⟨sound (by decide), sound (by decide), serves_range (by decide) (by decide) (by decide), serves_range (by decide) (by decide) (by decide),
    fun n => by unfold Dev.peekPoisonN; exact Bool.eq_false_iff.mpr (by simp [clean (d := (trusts {} []).toDev) (by decide)])⟩

theorem witness_TrustCommands_poison : (∀ n ∈ [32, 16384], ((trusts {} []).onDev (fun d => { d with poison := [d.hbmKey 0x10000 / 64] })).peekPoisonN 0x10000 n = true)
    ∧ ((trusts {} []).onDev (fun d => { d with poison := [d.hbmKey 0x10000 / 64] })).soundRange 0x10000 16384 := ⟨by decide +kernel, sound (by decide)⟩

theorem witness_TrustCommands_scope : (∀ n ∈ [0, 1], let s := trusts { scope := 3, left := n } []
      s.pw.railHold = false ∧ s.tru.scope ≠ 0 ∧ s.tru.left = n) ∧ (trusts {} []).tru.scope = 0 ∧ (8 : Fin 16).val = 8 ∧ (7 : Fin 16).val < 8 := by decide

/-- No owner; an owner in slot 2 whose signature verifies or does not; one in the last slot. -/
theorem witness_TrustCommands_owner : (trusts {} []).tru.slot = 4 ∧ Tbl.look (trusts {} []).tru.owner 0 = none
    ∧ (trusts { owner := [(0, []), (1, []), (2, [])], revoked := [0, 1] } []).tru.slot = 2
    ∧ (trusts { owner := [(0, []), (1, []), (2, []), (3, [])], revoked := [0, 1, 2] } []).tru.slot = 3 := by decide

/-- The running SVN is 5. -/
theorem witness_AdvanceSvn : let s : State := (trusts { minSvn := 3 } []).onDev (fun d => { d with fw := { man := some { (man true) with svn := 5 } } })
    s.serves (aTru 0x11C) = true ∧ (s.fw.man.map (fun m => m.svn)).getD 0 = 5 ∧ 5 < (6 : BitVec 16).toNat ∧ (5 : BitVec 16).toNat ≤ 5 := by decide +kernel

/-- A debug token for scope 1 and one tick, for this device and a nonce of 32 bytes 9. -/
def token : List Byte := [1, 0, 0, 0, 1, 0, 0, 0] ++ bytesLE 8 Config.serial.toNat ++ List.replicate 32 9 ++ [1, 0, 0, 0] ++ List.replicate 12 0

def tokenState : State := (trusts { nonce := some (List.replicate 32 9) } token).onDev (fun d => { d with fw := { man := some { (man true) with policy := 2 } } })

theorem ofBytesLE_bytesLE (n : Nat) : ∀ w, w < 256 ^ n → ofBytesLE (bytesLE n w) = w := by
  induction n with
  | zero => intro w h; simp at h; subst h; rfl
  | succ n ih =>
    intro w h
    rw [bytesLE, ofBytesLE, ih _ (by rw [Nat.shiftRight_eq_div_pow]; rw [Nat.pow_succ] at h; omega), Nat.shiftRight_eq_div_pow, BitVec.toNat_ofNat]
    omega

theorem token_mem : tokenState.mem = cellsPut [] ((rig id).hbmKey 0x10000) token := by
  simp only [tokenState, trusts, State.onDev, booted, rig]
  congr 1

theorem token_line (k : Nat) : tokenState.line k = {} := by
  simp only [tokenState, trusts, State.onDev, booted, rig, Dev.line]
  rfl

theorem token_peek1 (i : Nat) (h : i < 64) : tokenState.peek1 (0x10000 + i) = token.getD i 0 := by
  have h1 : ∀ i, i < 64 → 0x10000 + i < hbmEnd ∧ tokenState.hbmKey (0x10000 + i) = (rig id).hbmKey 0x10000 + i := by decide
  have h2 : token.length = 64 := by simp [token, bytesLE]
  rw [Dev.peek1, if_pos (h1 i h).1, Dev.peekHbm, (h1 i h).2]
  rw [if_neg (by simp [token_line, CLine.has])]
  rw [token_mem]
  rw [cellAt_cellsPut, h2, if_pos (by omega), Nat.add_sub_cancel_left]

theorem token_take (o k : Nat) (h : o + k ≤ 64) : ((tokenState.peek 0x10000 16384).drop o).take k = (token.drop o).take k := by
  have h2 : token.length = 64 := by simp [token, bytesLE]
  apply List.ext_getElem
  · simp [Dev.peek, h2]; omega
  · intro i h3 h4
    simp only [List.getElem_take, List.getElem_drop, Dev.peek, List.getElem_map, List.getElem_range]
    rw [token_peek1 _ (by simp [Dev.peek] at h3; omega), List.getD_eq_getElem?_getD, List.getElem?_eq_getElem (by simp at h4; omega)]
    rfl

/-- The token is accepted where its signature verifies. -/
theorem witness_TrustCommands_token : tokenState.truBuf = 0x10000
    ∧ tokenState.tokenOk (tokenState.peek 0x10000 16384) = Config.lmsVerify [] ((tokenState.peek 0x10000 16384).drop 64) token := by
  refine ⟨by decide, ?_⟩
  have hs : ofBytesLE ((token.drop 8).take 8) = Config.serial.toNat := by
    rw [show (token.drop 8).take 8 = bytesLE 8 Config.serial.toNat from rfl]
    exact ofBytesLE_bytesLE 8 _ Config.serial.isLt
  have h0 := token_take 0 4 (by decide)
  have h64 := token_take 0 64 (by decide)
  have h4 := token_take 4 4 (by decide)
  have h8 := token_take 8 8 (by decide)
  have h16 := token_take 16 32 (by decide)
  have h48 := token_take 48 4 (by decide)
  have h52 := token_take 52 12 (by decide)
  rw [List.drop_zero] at h0 h64
  have e : token.take 64 = token := rfl
  have t : tokenState.tru.debugOff = false ∧ tokenState.policy 1 = true ∧ tokenState.tru.ownerKey = [] ∧ tokenState.tru.nonce = some (List.replicate 32 9) := by
    decide +kernel
  generalize tokenState.peek 0x10000 16384 = l at h0 h64 h4 h8 h16 h48 h52 ⊢
  unfold Dev.tokenOk
  simp only [List.drop_zero, h0, h64, h4, h8, h16, h48, h52, hs, e, t]
  rw [show token.take 4 = [1, 0, 0, 0] from rfl, show (token.drop 4).take 4 = [1, 0, 0, 0] from rfl, show (token.drop 16).take 32 = List.replicate 32 9 from rfl,
    show (token.drop 48).take 4 = [1, 0, 0, 0] from rfl, show (token.drop 52).take 12 = List.replicate 12 0 from rfl]
  simp [ofBytesLE]

/-! ## Ill-formed commands, and the table's words -/

theorem test_wf_regWrite : (Instr.regWrite 0 0 0 false).wf = false := by decide
theorem test_wf_cfgCommit : (Instr.cfgCommit 0 0).wf = false := by decide
theorem test_wf_meshRead : (Instr.meshPacketDeliver 0 none (.read 65536 1) {}).wf = false := by decide
theorem test_wf_meshWrite : (Instr.meshPacketDeliver 0 none (.write 62 [1, 2, 3, 4] false) {}).wf = false
    ∧ (Instr.meshPacketDeliver 0 none (.write 0x400000 [1, 2, 3, 4] false) {}).wf = false := by decide
theorem test_wf_reduce : (Instr.reducePacketArrive 0 0 0 0 { pkt := ⟨0, [1], false⟩ }).wf = false := by decide
theorem test_wf_boundary : (Instr.groupBoundary 0 0 [⟨144, 0, 1⟩] []).wf = false ∧ (Instr.groupBoundary 0 0 [] [⟨0, 64, 1⟩]).wf = false := by decide
theorem test_wf_parity : (Instr.slotParityError 0 0 0 false 48 0).wf = false := by decide
theorem test_wf_slice : (Instr.sliceAccess 0 (.read (2 ^ 48)) 0 false).wf = false ∧ (Instr.sliceAccess 0 (.write 63 [1, 2] false) 0 false).wf = false := by decide
theorem test_wf_posted : (Instr.postedReduction 0 0 0 [] false).wf = false := by decide
theorem test_wf_packets : let l : List Byte := List.replicate 4097 0
    (Instr.putReceive 0 0 l {}).wf = false ∧ (Instr.getRspReceive 0 0 l {}).wf = false ∧ (Instr.amoReceive 0 0 l {}).wf = false
      ∧ (Instr.amoRspReceive 0 0 l {}).wf = false ∧ (Instr.fwdPacket 0 0 l false {}).wf = false ∧ (Instr.colUpReceive 0 0 l {}).wf = false
      ∧ (Instr.colDnReceive 0 0 l {}).wf = false ∧ (Instr.mgmtReceive 0 0 l none {}).wf = false := by decide +kernel
theorem test_wf_bar2 : (Instr.bar2Read 0 0).wf = false ∧ (Instr.bar2Read 0 4097).wf = false ∧ (Instr.bar2Read 0x1FFFFFFFFFF 2).wf = false
    ∧ (Instr.bar2Write 0 [] false).wf = false ∧ (Instr.bar2Write 0x1FFFFFFFFFF [1, 2] false).wf = false := by decide
theorem test_wf_atomic : (Instr.bar2Atomic 0 .swap .w32 0x100000000 0).wf = false ∧ (Instr.bar2Atomic 0 .cas .w32 0 0x100000000).wf = false
    ∧ (Instr.bar2Atomic 2 .swap .w32 0 0).wf = false := by decide
theorem test_wf_exit : (Instr.stateExitDone [] []).wf = false := by decide
theorem test_wf_manifest : (Instr.bootManifest true [] ⟨true, 64, 0, true, true, 30, 0⟩).wf = false ∧ (Instr.bootManifest true [] ⟨true, 16, 16, true, true, 30, 0⟩).wf = false := by decide
theorem test_wf_train : let x : TrainFacts := ⟨[], [List.replicate 12 (0, 0), List.replicate 12 (0, 0)], [], List.replicate 24 15, true⟩
    x.wf = true ∧ ({ x with cores := [312] }).wf = false ∧ ({ x with wires := [] }).wf = false ∧ ({ x with wires := [[], []] }).wf = false
      ∧ ({ x with stackT := [16] }).wf = false
      ∧ ({ x with lanes := [] }).wf = false ∧ ({ x with lanes := List.replicate 24 16 }).wf = false := by decide
theorem test_wf_qualify : (Instr.bootQualify []).wf = false := by decide
theorem test_wf_peer : (Instr.bootPeer 0 ⟨[], [], 0, none, [], [], 0⟩).wf = false ∧ (Instr.bootPeer 0 ⟨[], [], 0, none, List.replicate 32 0, [], 24⟩).wf = false := by decide

/-- The table gives no row any bits. -/
theorem test_decodeTableWord : decodeTableWord 32 0 = none := rfl

/-! ## The spec's worked examples -/

/-- Core (1, 7, 4) (00, after R7); core 311's CMEM_BW_SPLIT and rank entry 5,000 (17, after R489). -/
theorem test_addresses : 1 * 156 + 7 * 13 + 4 = 251 ∧ aPln 251 0 = 0x13ED000 ∧ cmemBase 251 = 0xF0003EC00000 ∧ cmemOf 0xF0003EFFFFFF = some (251, 0x3FFFFF)
    ∧ aCmem 311 0x100 = 0x14DF100 ∧ aFabRank 5000 = 0x185420 := by decide

/-- Edge integers of FP8 (02, first example). -/
theorem test_edge_integers : [0x7E, 0x01, 0xB6, 0x3A, 0x40, 0x44, 0xB0].map (fun w => (e4m3.decode w).dy.at (-9)) = [229376, 1, -448, 640, 1024, 1536, -256] := by decide +kernel

/-- One FP8 group with c = 1.0 (02). -/
theorem test_accumulate_fp8 : accUpdate 234029057 0x3F800000 (-18) false {} = { head := 0x445F3000, tail := 0x36800000 } := by decide +kernel

/-- One FP4 group with c = 0.046875 and a preload of 0.25 (02). -/
theorem test_accumulate_fp4 : accUpdate 72 0x3D400000 (-2) false { head := 0x3E800000 } = { head := 0x3F8C0000 } := by decide

/-- Six groups whose large parts cancel (02). -/
theorem test_accumulate_cancel : ([(3, 29), (3, 0), (1, -30), (1, -12), (-3, 29), (1, -30)] : List (Int × Int)).foldl
      (fun e p => accUpdate p.1 0x3F800000 p.2 false e) {} = { head := 0x40400400, tail := 0x30800000 } := by decide

/-- The combined scale of a compact-class element (04). -/
theorem test_combined_scale : combinedScale [fp16.decode 0x3325, e4m3.decode 0x35, f32 0x3C000000] = 0x3AB9C200 := by decide

/-- A row segment drained to FP8 E4M3 and to FP4 E2M1 (04). -/
theorem test_quantise : let y := [0x42C80000, 0x40600000, 0xC1440000, 0x3D800000, 0xBF400000, 0x40E00000].map f32
    (rowScale 1 (amaxOf y)).1 = 0x3325 ∧ y.map (fun v => (convertY 1 v (some 0x3325)).1) = [0x7E, 0x58, 0xE6, 0x29, 0xC5, 0x60]
      ∧ (rowScale 0 (amaxOf y)).1 = 0x4C2B ∧ y.map (fun v => (convertY 0 v (some 0x4C2B)).1) = [0x7, 0x0, 0x9, 0x0, 0x0, 0x1] := by decide

/-- Bank numbers of three pitches (07, after R200). -/
theorem test_banks : (List.range 4).map (fun n => bankOf (4096 * n)) = [0, 2, 4, 6] ∧ bankOf (65536 * 5) = 0
    ∧ (List.range 4).map (fun n => bankOf (65600 * (30 + n))) = [30, 31, 1, 0] := by decide

/-- Decode of 0xC123_4580 in both modes, and its home slices (08, after R228). -/
theorem test_hbm_decode : hbmDecode false 0xC1234580 = (781, 3, 0x4880) ∧ hbmDecode true 0xC1234580 = (980, 2, 0x9180)
    ∧ keySlice ((0x100000 : Nat) * 1199619) = 16 + 8 ∧ keySlice ((0x100000 : Nat) * 1505282) = 16 + 14 := by decide +kernel

/-- Root leaves: a cold boot with 37 bits blown blows bit 37, and the first session tree takes leaf 37,888 (15, after R459). -/
theorem test_root_leaves : let d : Dev := { tru := { blocks := List.range 37, idOk := true, trngOk := true } }
    ((d.blowBlock []).newSession).tru.sessRoot = 37888 ∧ ((d.blowBlock []).newSession).tru.leaf = 37889 := by decide +kernel

/-- CRC-32C of "123456789" (the check value of that code). -/
theorem test_crc32c : crcBytes 0xFFFFFFFF [0x31, 0x32, 0x33, 0x34, 0x35, 0x36, 0x37, 0x38, 0x39] ^^^ 0xFFFFFFFF = 0xE3069283 := by decide +kernel

/-! ## Single steps -/

/-- The state that a command answers. -/
def after (i : Instr) (s : State) : State := match exec i s with
  | .next t => t
  | _ => s

/-- The budget with 608 W elsewhere is 12,032 tokens (14, worked example). -/
theorem test_leave_budget : (after (.leaveBudgetRecompute 608) (rig (fun d => (d.setReg (aPwr 0x100) 140).setReg (aPwr 0x110) 40))).budget = 12032 := by decide

/-- VADD: 1.5 + 2.25 rounds to 3.75, six cycles later; ties round away from zero (R52): 1 + 2^-24. -/
theorem test_vadd : (addF32 0x3FC00000 0x40100000, addF32 0x3F800000 0x33800000) = (0x40700000, 0x3F800001) := by decide

/-- A command that waits runs at the next step, and the queue's rest stays. -/
theorem test_step : (match step { core0 with pending := [.aonTick, .flr] } with
    | .next t => decide (t.tick = 1) && t.pending == [.flr]
    | _ => false) = true := by decide +kernel

/-- A fetch-and-add by the host answers the old value (R361, R241). -/
theorem test_atomic : (after (.bar2Atomic 0 .fetchAdd .w32 5 0) { hosted false with mem := [(0, 7)] }).rdata = [7, 0, 0, 0]
    ∧ (after (.bar2Atomic 0 .fetchAdd .w32 5 0) { hosted false with mem := [(0, 7)] }).peek 0 4 = [12, 0, 0, 0] := by decide +kernel

/-- One uncorrectable error on a warm device (12, worked example): 60 + 28 + 32 points, and 118 an interval later. -/
theorem test_owl_score : let at_ (t : Nat) (o : Owl) : State := { rig (fun d => { (d.setReg (aOwl 0x100) 0x80000000) with stackT := [(3, { trained := true, temp := 92 })], owl := o }) with tick := t }
    (after .owlInterval (at_ 15625 { acc := [(0, 245760)], ev := [(0, 60), (1, 1)] })).owl.score = 120
      ∧ (after .owlInterval (at_ 15625 { acc := [(0, 245760), (1, 256)], ev := [(0, 60)] })).owl.score = 118 := by decide +kernel

end Sys2Proof.Tests
end

section
/-! PROOFS. The commit gate and the vector slot (R161): what a word's checks can answer, and what the vector slot leaves
in the vector registers where its predicate is true and where it is false. -/

namespace Sys2Proof.Machine

/-! ## What the checks of an execute word answer -/

/-- The answer of a check that holds a word back: no fault, and a wait for the gate (cause 16) only where g. -/
def Check.holds (g : Prop) : Check → Prop
  | .ok => True
  | .wait x => x.cause = 16 → g
  | .fault _ _ => False

/-- The answer of a check that never waits. -/
def Check.prompt : Check → Prop
  | .wait _ => False
  | _ => True

/-- What every check of a list answers, the list answers. -/
theorem firstCheck_of_forall {P : Check → Prop} (hok : P .ok) {l : List Check} (h : ∀ x ∈ l, P x) : P (firstCheck l) := by
  induction l with
  | nil => exact hok
  | cons x t ih =>
    rw [List.forall_mem_cons] at h
    cases x with
    | ok => exact ih h.2
    | wait w => exact h.1
    | fault u a => exact h.1

theorem firstCheck_ok_cons (l : List Check) : firstCheck (.ok :: l) = firstCheck l := rfl

theorem firstCheck_cons_of_ne_ok {x : Check} (h : x ≠ .ok) (l : List Check) : firstCheck (x :: l) = x := by
  cases x with
  | ok => exact absurd rfl h
  | wait w => rfl
  | fault u a => rfl

/-- A check that does not pass keeps its list from passing. -/
theorem firstCheck_ne_ok {x : Check} (h : x ≠ .ok) {l : List Check} (hx : x ∈ l) : firstCheck l ≠ .ok := by
  induction l with
  | nil => cases hx
  | cons y t ih =>
    by_cases hy : y = .ok
    · subst hy
      exact ih ((List.mem_cons.mp hx).resolve_left h)
    · rwa [firstCheck_cons_of_ne_ok hy]

theorem waitIf_holds {g : Prop} {b : Bool} {cause arg : Nat} (h : b = true → cause = 16 → g) : (waitIf b cause arg).holds g := by
  cases b with
  | false => exact trivial
  | true => exact h rfl

theorem faultIf_prompt (b : Bool) (u a : Nat) : (faultIf b u a).prompt := by cases b <;> exact trivial

theorem Core.waitfCheck_holds (g : Prop) (k : Core) (y cyc : Nat) : (k.waitfCheck y cyc).holds g := by
  unfold Core.waitfCheck
  split
  · exact waitIf_holds fun _ h => absurd h (by decide)
  · exact trivial

theorem Dev.busyCheck_holds (g : Prop) (d : Dev) (c u p : Nat) (keys : List Nat) : (d.busyCheck c true u p keys).holds g := by
  unfold Dev.busyCheck
  split
  · exact trivial
  · split
    · exact fun h => absurd h (by simp)
    · exact trivial

theorem Dev.busyCheck_prompt (d : Dev) (c u p : Nat) (keys : List Nat) : (d.busyCheck c false u p keys).prompt := by
  unfold Dev.busyCheck
  split
  · exact trivial
  · split <;> exact trivial

/-- Both checks of busy slots answer as `Dev.busyCheck` does. -/
theorem Dev.slotChecks_of_busyCheck {P : Check → Prop} {d : Dev} {c : Nat} {stall : Bool} (hok : P .ok)
    (h : ∀ u p keys, P (d.busyCheck c stall u p keys)) (w : XWord) : ∀ x ∈ d.slotChecks c w stall, P x := by
  simp only [Dev.slotChecks, List.forall_mem_cons, List.not_mem_nil, false_imp_iff, implies_true, and_true]
  constructor
  · split
    · exact h _ _ _
    · exact hok
  · split
    · exact h _ _ _
    · exact hok

theorem forall_mem_ite_nil {P : Check → Prop} {b : Prop} [Decidable b] {l : List Check} (h : ∀ x ∈ l, P x) :
    ∀ x ∈ (if b then l else []), P x := by
  split
  · exact h
  · exact fun _ hx => nomatch hx

/-- What holds an execute word back is never a fault, and is the gate only where the gate makes the word wait. -/
theorem Dev.xHolds_holds (d : Dev) (c : Nat) (w : XWord) : (d.xHolds c w).holds (d.gateWaits c w.v = true) := by
  unfold Dev.xHolds
  refine firstCheck_of_forall trivial ?_
  have other {b : Bool} {cause arg : Nat} (h : cause ≠ 16) : (waitIf b cause arg).holds (d.gateWaits c w.v = true) :=
    waitIf_holds fun _ hc => absurd hc h
  simp only [List.forall_mem_append]
  refine ⟨⟨⟨⟨⟨⟨?flags, ?mrun⟩, ?drain⟩, ?vldq⟩, ?vstq⟩, ?gate⟩, ?slots⟩
  case flags => exact List.forall_mem_singleton.mpr (Core.waitfCheck_holds _ _ _ _)
  case mrun => exact forall_mem_ite_nil (List.forall_mem_map.mpr fun _ _ => other (by decide))
  case drain => exact forall_mem_ite_nil (List.forall_mem_cons.mpr ⟨other (by decide), List.forall_mem_singleton.mpr (other (by decide))⟩)
  case vldq => exact forall_mem_ite_nil (List.forall_mem_singleton.mpr (other (by decide)))
  case vstq => exact forall_mem_ite_nil (List.forall_mem_singleton.mpr (other (by decide)))
  case gate => exact List.forall_mem_cons.mpr ⟨waitIf_holds fun h _ => h, List.forall_mem_singleton.mpr (other (by decide))⟩
  case slots => exact Dev.slotChecks_of_busyCheck trivial (Dev.busyCheck_holds _ d c) w

theorem Dev.xHolds_ne_ok {d : Dev} {c : Nat} {w : XWord} (h : d.gateWaits c w.v = true) : d.xHolds c w ≠ .ok := by
  unfold Dev.xHolds
  refine firstCheck_ne_ok (x := waitIf (d.gateWaits c w.v) 16 0) (by simp [h, waitIf]) ?_
  simp

/-- A word that the gate holds back waits. -/
theorem Dev.xHolds_waits {d : Dev} {c : Nat} {w : XWord} (h : d.gateWaits c w.v = true) : ∃ x, d.xHolds c w = .wait x := by
  have hh := Dev.xHolds_holds d c w
  have hne := Dev.xHolds_ne_ok h
  cases hx : d.xHolds c w with
  | ok => exact absurd hx hne
  | wait x => exact ⟨x, rfl⟩
  | fault u a => rw [hx] at hh; exact hh.elim

theorem Dev.windowCheck_prompt (d : Dev) (c : Nat) (e : Bool) : (d.windowCheck c e).prompt := faultIf_prompt _ _ _

theorem Dev.xEncoding_prompt (d : Dev) (c : Nat) (w : XWord) : (d.xEncoding c w).prompt := by
  refine firstCheck_of_forall trivial ?_
  simp only [List.forall_mem_cons, List.not_mem_nil, false_imp_iff, implies_true, and_true, faultIf_prompt]

theorem Dev.xFaults_prompt (d : Dev) (c : Nat) (w : XWord) : (d.xFaults c w).prompt := by
  refine firstCheck_of_forall trivial ?_
  simp only [List.forall_mem_append]
  refine ⟨⟨⟨?slots, ?mrun⟩, ?drain⟩, ?vhaz⟩
  case slots => exact Dev.slotChecks_of_busyCheck trivial (Dev.busyCheck_prompt d c) w
  case mrun => exact forall_mem_ite_nil (List.forall_mem_singleton.mpr (faultIf_prompt _ _ _))
  case drain => exact forall_mem_ite_nil (by simp only [List.forall_mem_cons, List.not_mem_nil, false_imp_iff, implies_true, and_true, faultIf_prompt])
  case vhaz => exact forall_mem_ite_nil (List.forall_mem_map.mpr fun _ _ => faultIf_prompt _ _ _)

/-- An execute word waits for the gate only where the gate makes it wait. -/
theorem Dev.gateWaits_of_xCheck {d : Dev} {c : Nat} {w : XWord} {a : Nat} (h : d.xCheck c w = .wait ⟨16, a⟩) : d.gateWaits c w.v = true := by
  let P (x : Check) : Prop := x = .wait ⟨16, a⟩ → d.gateWaits c w.v = true
  have of_prompt {x : Check} (hx : x.prompt) : P x := by rintro rfl; exact hx.elim
  refine firstCheck_of_forall (P := P) (fun h => nomatch h) ?_ h
  simp only [List.forall_mem_cons, List.not_mem_nil, false_imp_iff, implies_true, and_true]
  refine ⟨of_prompt (Dev.windowCheck_prompt d c true), of_prompt (Dev.xEncoding_prompt d c w), ?_, of_prompt (Dev.xFaults_prompt d c w)⟩
  intro hx
  have hh := Dev.xHolds_holds d c w
  rw [hx] at hh
  exact hh rfl

/-- The encoding check of a word faults where its vector slot is refused. -/
theorem Dev.xEncoding_faults {d : Dev} {c : Nat} {w : XWord} (h : vectorBad w.v (fun p => d.rows c p) = true) :
    ∃ u a, d.xEncoding c w = .fault u a := by
  have hp := Dev.xEncoding_prompt d c w
  have hne : d.xEncoding c w ≠ .ok :=
    firstCheck_ne_ok (x := faultIf (vectorBad w.v (fun p => d.rows c p)) 2 (hazArg 0 0 0 0)) (by simp [h, faultIf]) (by simp)
  cases hx : d.xEncoding c w with
  | ok => exact absurd hx hne
  | wait x => rw [hx] at hp; exact hp.elim
  | fault u a => exact ⟨u, a, rfl⟩

/-- VLDQ, VSTQ and VRDS take no predicate (R161). -/
theorem vectorBad_of_pred {v : Nat} (ho : vOp v = 0x28 ∨ vOp v = 0x29 ∨ vOp v = 0x2A) (hp : vPred v ≠ 0) (rows : Nat → Nat) :
    vectorBad v rows = true := by
  unfold vectorBad
  rcases ho with h | h | h <;> simp [h, vExt, hp]

/-! ## The gate -/

theorem Dev.gateWaits_iff {d : Dev} {c v : Nat} : d.gateWaits c v = true ↔ vPred v ≠ 0 ∧ d.gateOf c ∈ [1, 2, 5, 6] := by
  simp [Dev.gateWaits]

theorem Dev.predTrue_iff {d : Dev} {c v : Nat} :
    d.predTrue c v = true ↔ vPred v = 0 ∨ (vPred v = 1 ∧ d.gateOf c = 3) ∨ (vPred v = 2 ∧ d.gateOf c = 4) := by
  simp [Dev.predTrue, or_assoc]

theorem Dev.gateOf_of_no_job {d : Dev} {c : Nat} (h : (d.core c).job = none) : d.gateOf c = 0 := by
  simp [Dev.gateOf, h]

/-! ## What the vector slot leaves in the vector registers -/

/-- A slot whose predicate is false leaves every vector register (R161). -/
theorem Dev.vectorEffect_vread_of_false {d : Dev} {c v : Nat} (hp : d.predTrue c v = false) (r n : Nat) :
    ((d.vectorEffect c v).core c).vread r n = (d.core c).vread r n := by
  unfold Dev.vectorEffect
  simp only [hp, Bool.not_false, if_true]
  split
  · rfl
  · split
    · rw [Dev.core_onCore_self]; exact Core.vread_congr rfl rfl r n
    · rfl

@[simp] theorem Core.vread_freeLogs (k : Core) (r n : Nat) : k.freeLogs.vread r n = k.vread r n := Core.vread_congr rfl rfl r n
@[simp] theorem Core.vread_drop (k : Core) (q m r n : Nat) : (k.drop q m).vread r n = k.vread r n := Core.vread_congr rfl rfl r n

/-- A slot whose predicate is true writes its result to VD at its latency, and leaves every other register (R160, R161). -/
theorem Dev.vectorEffect_vread {d : Dev} {c v : Nat} (hp : d.predTrue c v = true) (h0 : vOp v ≠ 0) (h29 : vOp v ≠ 0x29) (r n : Nat) :
    ((d.vectorEffect c v).core c).vread r n = if r = vD v ∧ d.cycle + vLatency v ≤ n then d.vResult c v else (d.core c).vread r n := by
  have hwrite : ((d.vectorEffect c v).core c).vread r n
      = ((d.core c).vwrite (vD v) (d.vResult c v) (d.cycle + vLatency v)).vread r n := by
    by_cases h28 : vOp v = 0x28
    · simp [Dev.vectorEffect, h28, hp]
    · by_cases h2A : vOp v = 0x2A
      · simp [Dev.vectorEffect, h2A, hp]
      · rw [Dev.vectorEffect_core d c v h0 h28 h29 h2A hp]
        exact Core.vread_congr rfl rfl r n
  rw [hwrite, Core.vread_vwrite]

/-- The vector registers that an execute word leaves are those that its vector slot leaves. -/
theorem XWord.effect_vread (w : XWord) (c : Nat) (d : Dev) (r n : Nat) :
    (((StreamWord.x w).effect c d).core c).vread r n = ((d.vectorEffect c w.v).core c).vread r n := by
  obtain ⟨hpend, hregs, -, -⟩ := XWord.effect_regs w c d
  exact Core.vread_congr hpend hregs r n

/-! ## The statement -/

/-- Settles O6: the checks answer as the gate stands, and the vector slot writes VD where its predicate is true. -/
theorem predicatesFollowTheGate : Obligations.PredicatesFollowTheGate := by
  intro i s c w hw gate ready
  refine ⟨?predFalse, ?predTrue, ?waits, ?noWait, ?noGate, ?queues⟩
  case predFalse =>
    intro hr hpred hopen hclosed
    have hp : s.predTrue c w.v = false :=
      Bool.eq_false_iff.mpr fun h => (Dev.predTrue_iff.mp h).elim hpred (·.elim hopen hclosed)
    refine completes_word hw hr fun r n => ?_
    exact (XWord.effect_vread w c s.toDev r n).trans (Dev.vectorEffect_vread_of_false hp r n)
  case predTrue =>
    intro hr hp h0 h29
    refine completes_word hw hr ?_
    refine (XWord.effect_vread w c s.toDev _ _).trans ?_
    rw [Dev.vectorEffect_vread (Dev.predTrue_iff.mpr hp) h0 h29, if_pos ⟨rfl, Nat.le_refl _⟩]
  case waits =>
    intro _ hwin henc hpred hgate
    have hg : s.gateWaits c w.v = true := Dev.gateWaits_iff.mpr ⟨hpred, hgate⟩
    obtain ⟨x, hx⟩ := Dev.xHolds_waits hg
    refine ⟨x, ?_⟩
    rw [StreamWord.check, Dev.xCheck, hwin, henc, firstCheck_ok_cons, firstCheck_ok_cons, hx]
    rfl
  case noWait =>
    intro h hwait
    obtain ⟨hpred, hgate⟩ := Dev.gateWaits_iff.mp (Dev.gateWaits_of_xCheck hwait)
    exact h.elim (fun hn => hn hgate) hpred
  case noGate =>
    intro h
    have hg : gate = 0 := h.elim Dev.gateOf_of_no_job id
    omega
  case queues =>
    intro hwin hpred ho
    obtain ⟨u, a, hx⟩ := Dev.xEncoding_faults (d := s.toDev) (c := c) (vectorBad_of_pred ho hpred _)
    refine ⟨u, a, ?_⟩
    rw [StreamWord.check, Dev.xCheck, hwin, firstCheck_ok_cons, hx]
    rfl

end Sys2Proof.Machine
end

section
/-! PROOFS. What memory accesses, the journal and job stops leave of the command block; how a stream's record changes when its
command ends; job reset and stream reset (R396). -/

namespace Sys2Proof.Machine

/-! ## What a fold leaves -/

/-- A projection that every step of a fold leaves, the fold leaves. -/
theorem foldl_keeps {α β : Type} (π : Dev → β) {f : Dev → α → Dev} (h : ∀ d x, π (f d x) = π d) (l : List α) (d : Dev) :
    π (l.foldl f d) = π d := by
  induction l generalizing d with
  | nil => rfl
  | cons x t ih => rw [List.foldl_cons, ih, h]

/-! ## Memory leaves the command block -/

@[simp] theorem Dev.trxTake_cb (d : Dev) (k : Nat) : (d.trxTake k).cb = d.cb := rfl
@[simp] theorem Dev.hostWrite_cb (d : Dev) (a : Nat) (l : List Byte) : (d.hostWrite a l).cb = d.cb := rfl
@[simp] theorem Dev.poisonSent_cb (d : Dev) (die : Nat) (p : Bool) : (d.poisonSent die p).cb = d.cb := by
  unfold Dev.poisonSent; split <;> simp
@[simp] theorem Dev.crossDie_cb (d : Dev) (die pa : Nat) : (d.crossDie die pa).cb = d.cb := by
  unfold Dev.crossDie; dsimp only; split <;> simp
@[simp] theorem Dev.sink_cb (d : Dev) (c : Nat) : (d.sink c).cb = d.cb := by simp [Dev.sink]

@[simp] theorem Dev.cmemRecord_cb (d : Dev) (c off sym cw : Nat) (ue : Bool) : (d.cmemRecord c off ue sym cw).cb = d.cb := by
  unfold Dev.cmemRecord; split
  · rfl
  · exact Dev.setReg_cb ..

@[simp] theorem Dev.cmemRead_cb (d : Dev) (c off : Nat) : (d.cmemRead c off).1.cb = d.cb := by
  unfold Dev.cmemRead
  dsimp only
  rw [apply_ite Dev.cb, Dev.raise_cb, Dev.inc_cb, ite_self, apply_ite Dev.cb, Dev.setPoison_cb, Dev.raise_cb, Dev.cmemRecord_cb,
    Dev.owlEv_cb, Dev.inc_cb, ite_self, apply_ite Dev.cb, Dev.raise_cb, Dev.cmemRecord_cb, Dev.owlEv_cb, Dev.inc_cb, ite_self]

@[simp] theorem Dev.cmemInject_cb (d : Dev) (c a : Nat) : (d.cmemInject c a).cb = d.cb := by
  unfold Dev.cmemInject
  dsimp only
  rw [apply_ite Dev.cb, Dev.setReg_cb, ite_self, apply_ite Dev.cb, Dev.setPoison_cb, ite_self, apply_ite Dev.cb]
  exact ite_self _

@[simp] theorem Dev.cmemWrite_cb (d : Dev) (c off : Nat) (l : List Byte) (p : Bool) : (d.cmemWrite c off l p).cb = d.cb := by
  simp [Dev.cmemWrite]

@[simp] theorem Dev.cmemPart_cb (d : Dev) (c off : Nat) (l : List Byte) (p : Bool) : (d.cmemPart c off l p).cb = d.cb := by
  simp [Dev.cmemPart]

@[simp] theorem Dev.hmcRecord_cb (d : Dev) (i pa sym cw : Nat) (ue : Bool) : (d.hmcRecord i pa ue sym cw).cb = d.cb := by
  unfold Dev.hmcRecord; split
  · rfl
  · exact (Dev.setReg_cb ..).trans (Dev.setReg_cb ..)

@[simp] theorem Dev.lineCorr_cb (d : Dev) (g sym : Nat) : (d.lineCorr g sym).cb = d.cb := by
  unfold Dev.lineCorr
  dsimp only
  split
  · rw [Dev.raise_cb]; split <;> simp
  · rfl

@[simp] theorem Dev.hmcCount_cb (d : Dev) (k pa : Nat) (rs : List (Nat × CwRead)) : (d.hmcCount k pa rs).cb = d.cb :=
  foldl_keeps Dev.cb (fun _ _ => by split <;> simp) rs d

@[simp] theorem Dev.hbmBlock_cb (d : Dev) (k pa : Nat) : (d.hbmBlock k pa).1.cb = d.cb := by
  unfold Dev.hbmBlock; dsimp only; split <;> simp

@[simp] theorem Dev.hbmInject_cb (d : Dev) (k : Nat) : (d.hbmInject k).cb = d.cb := by
  unfold Dev.hbmInject
  simp only [apply_ite Dev.cb, Dev.setReg_cb, Dev.setPoison_cb, ite_self]

@[simp] theorem Dev.hbmStore_cb (d : Dev) (k : Nat) (l : List Byte) (p : Bool) : (d.hbmStore k l p).cb = d.cb := by
  unfold Dev.hbmStore; dsimp only; split <;> simp

@[simp] theorem Dev.hbmBack_cb (d : Dev) (k : Nat) (l : List Byte) (p : Bool) : (d.hbmBack k l p).cb = d.cb := by
  unfold Dev.hbmBack; split <;> simp

@[simp] theorem Dev.evict_cb (d : Dev) (ln : Nat) : (d.evict ln).cb = d.cb := by
  unfold Dev.evict
  dsimp only
  split
  · rw [Dev.inc_cb, Dev.trxTake_cb]; split <;> split <;> simp
  · rfl

@[simp] theorem Dev.makeRoom_cb (d : Dev) (k : Nat) : (d.makeRoom k).cb = d.cb := by
  unfold Dev.makeRoom; split <;> simp

@[simp] theorem Dev.putBlock_cb (d : Dev) (ln k : Nat) (l : List Byte) (p dirty : Bool) : (d.putBlock ln k l p dirty).cb = d.cb :=
  Dev.makeRoom_cb d ln

@[simp] theorem Dev.hbmSet_cb (d : Dev) (pa : Nat) (l : List Byte) (p : Bool) : (d.hbmSet pa l p).cb = d.cb :=
  Dev.putBlock_cb ..

@[simp] theorem Dev.hbmPut_cb (d : Dev) (pa : Nat) (l : List Byte) (p : Bool) : (d.hbmPut pa l p).cb = d.cb := by
  unfold Dev.hbmPut; dsimp only; split <;> simp

@[simp] theorem Dev.fillBlock_cb (d : Dev) (k pa h : Nat) : (d.fillBlock k pa h).cb = d.cb := by
  unfold Dev.fillBlock; dsimp only; split <;> simp

@[simp] theorem Dev.fill_cb (d : Dev) (k pa : Nat) : (d.fill k pa).cb = d.cb := by simp [Dev.fill]

@[simp] theorem Dev.hbmRead_cb (d : Dev) (pa : Nat) : (d.hbmRead pa).1.cb = d.cb := by
  unfold Dev.hbmRead
  dsimp only
  split
  · dsimp only; split <;> simp
  · split
    · simp
    · dsimp only; split <;> simp

@[simp] theorem Dev.hbmPutPart_cb (d : Dev) (pa : Nat) (l : List Byte) (p : Bool) : (d.hbmPutPart pa l p).cb = d.cb := by
  unfold Dev.hbmPutPart
  dsimp only
  split
  · simp
  · split <;> simp

@[simp] theorem Dev.rawWrite_cb (d : Dev) (pa : Nat) (l : List Byte) : (d.rawWrite pa l).cb = d.cb := by
  unfold Dev.rawWrite
  split
  · simp
  · split <;> simp

theorem Dev.withOwl_cb (d : Dev) (o : Owl) : ({ d with owl := o } : Dev).cb = d.cb := rfl

/-- The write of the record is kept opaque: comparing what it leaves field by field would evaluate it in the kernel. -/
@[simp] theorem Dev.owlRecord_cb (d : Dev) (e : OwlEvent) : (d.owlRecord e).cb = d.cb := by
  rw [Dev.owlRecord]
  dsimp only
  generalize h : d.rawWrite _ _ = d1
  have h1 : d1.cb = d.cb := by rw [← h, Dev.rawWrite_cb]
  split
  · exact Dev.raise_cb ..
  · rw [Dev.withOwl_cb, h1]

@[simp] theorem Dev.sqrHold_cb (d : Dev) (w : HeldWrite) : (d.sqrHold w).1.cb = d.cb := by
  unfold Dev.sqrHold
  dsimp only
  split
  · rfl
  · split
    · rfl
    · split <;> simp

@[simp] theorem Dev.hbmWrite_cb (d : Dev) (pa : Nat) (l : List Byte) (p : Bool) : (d.hbmWrite pa l p).cb = d.cb := by
  unfold Dev.hbmWrite; dsimp only; split <;> simp

@[simp] theorem Dev.devWrite_cb (d : Dev) (die : Nat) (job : Option Nat) (pa : Nat) (l : List Byte) (p : Bool) :
    (d.devWrite die job pa l p).1.cb = d.cb := by
  unfold Dev.devWrite
  dsimp only
  split
  · simp
  · split
    · split
      · dsimp only; split <;> simp
      · simp
    · simp

@[simp] theorem Dev.devWriteN_cb (d : Dev) (die : Nat) (job : Option Nat) (pa : Nat) (l : List Byte) (p : Bool) :
    (d.devWriteN die job pa l p).cb = d.cb :=
  foldl_keeps Dev.cb (fun _ _ => Dev.devWrite_cb ..) _ d

@[simp] theorem Dev.record_cb (d : Dev) (host : Bool) (a : Nat) (l : List Byte) : (d.record host a l).cb = d.cb := by
  unfold Dev.record
  split
  · split <;> simp
  · exact foldl_keeps Dev.cb (fun _ _ => by simp) _ d

@[simp] theorem Dev.doneRec_cb (d : Dev) (c : Nat) (dup : Bool) (st status : Nat) : (d.doneRec c dup st status).cb = d.cb :=
  Dev.record_cb ..

/-! ## The journal leaves the command block and the cores -/

@[simp] theorem Dev.writeThrough_cb (d : Dev) (pa : Nat) (l : List Byte) : (d.writeThrough pa l).cb = d.cb := by
  simp [Dev.writeThrough]

@[simp] theorem Dev.jrnDegrade_cb (d : Dev) (i : Nat) : (d.jrnDegrade i).cb = d.cb := by simp [Dev.jrnDegrade]

@[simp] theorem Dev.journal_cb (d : Dev) (x : Nat) : (d.journal x).cb = d.cb := by
  refine foldl_keeps Dev.cb (fun d i => ?_) [0, 1] d
  split
  · dsimp only; split <;> simp
  · rfl

@[simp] theorem Dev.hbmInject_cores (d : Dev) (k : Nat) : (d.hbmInject k).cores = d.cores := by
  unfold Dev.hbmInject
  simp only [apply_ite Dev.cores, Dev.setReg_cores, Dev.setPoison_cores, ite_self]

@[simp] theorem Dev.hbmStore_cores (d : Dev) (k : Nat) (l : List Byte) (p : Bool) : (d.hbmStore k l p).cores = d.cores := by
  unfold Dev.hbmStore; dsimp only; split <;> simp

@[simp] theorem Dev.hbmBack_cores (d : Dev) (k : Nat) (l : List Byte) (p : Bool) : (d.hbmBack k l p).cores = d.cores := by
  unfold Dev.hbmBack; split <;> simp

@[simp] theorem Dev.trxTake_cores (d : Dev) (k : Nat) : (d.trxTake k).cores = d.cores := rfl

@[simp] theorem Dev.evict_cores (d : Dev) (ln : Nat) : (d.evict ln).cores = d.cores := by
  unfold Dev.evict
  dsimp only
  split
  · rw [Dev.inc_cores, Dev.trxTake_cores]; split <;> split <;> simp
  · rfl

@[simp] theorem Dev.makeRoom_cores (d : Dev) (k : Nat) : (d.makeRoom k).cores = d.cores := by
  unfold Dev.makeRoom; split <;> simp

@[simp] theorem Dev.hbmSet_cores (d : Dev) (pa : Nat) (l : List Byte) (p : Bool) : (d.hbmSet pa l p).cores = d.cores :=
  Dev.makeRoom_cores ..

@[simp] theorem Dev.hbmPut_cores (d : Dev) (pa : Nat) (l : List Byte) (p : Bool) : (d.hbmPut pa l p).cores = d.cores := by
  unfold Dev.hbmPut; dsimp only; split <;> simp

@[simp] theorem Dev.journal_cores (d : Dev) (x : Nat) : (d.journal x).cores = d.cores := by
  refine foldl_keeps Dev.cores (fun d i => ?_) [0, 1] d
  split
  · dsimp only; split <;> simp [Dev.jrnDegrade, Dev.writeThrough]
  · rfl

/-! ## What a job's stop and a core's reset leave of the command block -/

@[simp] theorem Dev.freeDst_cb (d : Dev) (ch : Nat) (e : DmaDesc) : (d.freeDst ch e).cb = d.cb := by
  unfold Dev.freeDst
  dsimp only
  split
  · rfl
  · exact foldl_keeps Dev.cb (fun _ _ => by rw [Dev.useFree_cb]; split <;> simp) _ d

@[simp] theorem Dev.dmaDisable_cb (d : Dev) (ch : Nat) : (d.dmaDisable ch).cb = d.cb := by
  unfold Dev.dmaDisable
  simpa using foldl_keeps Dev.cb (fun d e => Dev.freeDst_cb d ch e) _ d

@[simp] theorem Dev.disableJob_cb (d : Dev) (n : Nat) : (d.disableJob n).cb = d.cb :=
  foldl_keeps Dev.cb (fun _ _ => by simp) _ d

@[simp] theorem Dev.gateFail_cb (d : Dev) (n code : Nat) : (d.gateFail n code).cb = d.cb := by
  unfold Dev.gateFail
  dsimp only
  split
  · rw [Dev.raise_cb, Dev.setF_cb, Dev.setF_cb]
  · rfl

@[simp] theorem Dev.stopAgain_cb (d : Dev) (n code phys : Nat) : (d.stopAgain n code phys).cb = d.cb := by
  unfold Dev.stopAgain
  dsimp only
  split
  · rw [Dev.setF_cb, Dev.setF_cb, apply_ite Dev.cb, Dev.setF_cb, ite_self]
  · rfl

/-- A job reset's stop leaves the commands to R396. -/
@[simp] theorem Dev.jobStop_cb (d : Dev) (n code phys : Nat) : (d.jobStop n code phys false).cb = d.cb := by
  unfold Dev.jobStop
  split
  · exact Dev.stopAgain_cb ..
  · simp only [Bool.false_eq_true, if_false]
    rw [Dev.raise_cb, Dev.owlRecord_cb, Dev.setReg_cb, Dev.event_cb, Dev.gateFail_cb, Dev.putB_cb, Dev.disableJob_cb]
    exact foldl_keeps Dev.cb (fun _ _ => Dev.onCore_cb ..) _ d

@[simp] theorem Dev.clearMember_cb (d : Dev) (c : Nat) : (d.clearMember c).cb = d.cb := by
  unfold Dev.clearMember
  split
  · rfl
  · exact foldl_keeps Dev.cb (fun _ _ => by split <;> simp) _ d

@[simp] theorem Dev.leaveJob_cb (d : Dev) (c : Nat) : (d.leaveJob c).cb = d.cb := by
  rw [Dev.leaveJob, Dev.cmemClear, Dev.onCore_cb, Dev.onCore_cb]

@[simp] theorem Dev.coreReset_cb (d : Dev) (c : Nat) : (d.coreReset c).cb = d.cb := by
  unfold Dev.coreReset
  dsimp only [Dev.showCoreBusy, Dev.dropLeave]
  split <;> rfl

@[simp] theorem Dev.clearSends_cb (d : Dev) (f : Nat → Bool) : (d.clearSends f).cb = d.cb :=
  foldl_keeps (f := fun e n => e.setSqrJob n { (e.sqrJob n) with stuck := true }) Dev.cb (fun _ _ => rfl) _ _

/-! ## A stream's record when its command ends -/

/-- The record that the end of a stream's command leaves (R375). -/
def Dev.ended (d : Dev) (s : Nat) (st : CmdState) (status phys : Nat) : CmdStream :=
  { (d.strm s) with st := st, status := status, endT := d.tick, phys := phys,
                    released := (d.strm s).released || cmdOp (d.strm s).cmd != 1 }

/-- Of the command block, the end of a command changes its stream's record and what waiting commands note of it. -/
theorem Dev.finish_cb (d : Dev) (s : Nat) (st : CmdState) (status phys res0 : Nat) :
    (d.finish s st status phys res0).cb = ((d.setStrm s (d.ended s st status phys)).noteOutcome s (d.ended s st status phys)).cb := by
  unfold Dev.finish
  dsimp only
  rw [Dev.setF_cb]
  have calClose_cb (e : Dev) : (e.calClose s).cb = e.cb := by unfold Dev.calClose; split <;> simp
  rw [calClose_cb, Dev.incWrap_cb]
  split <;> simp [Dev.ended]

theorem Dev.strm_congr {d e : Dev} (h : e.cb = d.cb) (x : Nat) : e.strm x = d.strm x := by rw [Dev.strm, Dev.strm, h]

theorem Dev.strm_setStrm (d : Dev) (s x : Nat) (r : CmdStream) : (d.setStrm s r).strm x = if x = s then r else d.strm x :=
  Tbl.getD_store ..

/-- A table mapped by a function that keeps the keys. -/
theorem Tbl.look_map {α : Type} {f : Nat × α → Nat × α} (h : ∀ p, (f p).1 = p.1) (t : Tbl α) (x : Nat) :
    Tbl.look (t.map f) x = (Tbl.look t x).map (fun v => (f (x, v)).2) := by
  induction t with
  | nil => rfl
  | cons p t ih =>
    obtain ⟨k, v⟩ := p
    have hk : f (k, v) = (k, (f (k, v)).2) := Prod.ext (h _) rfl
    rw [List.map_cons, hk, Tbl.look, Tbl.look, ih]
    split
    · subst x; rfl
    · rfl

/-- Of a record, the outcome of another command changes only what it has noted. -/
theorem Dev.strm_noteOutcome (d : Dev) (s : Nat) (r : CmdStream) (x : Nat) :
    ∃ o, (d.noteOutcome s r).strm x = { (d.strm x) with out := o } := by
  simp only [Dev.strm, Dev.noteOutcome, Tbl.getD]
  rw [Tbl.look_map (fun p => by split <;> rfl)]
  cases Tbl.look d.cb.streams x with
  | none => exact ⟨none, rfl⟩
  | some v =>
    simp only [Option.map_some, Option.getD_some]
    split
    · exact ⟨_, rfl⟩
    · exact ⟨v.out, rfl⟩

/-- The records after the end of a stream's command. -/
theorem Dev.strm_finish (d : Dev) (s : Nat) (st : CmdState) (status phys res0 x : Nat) :
    ∃ o, (d.finish s st status phys res0).strm x = { (if x = s then d.ended s st status phys else d.strm x) with out := o } := by
  rw [Dev.strm_congr (Dev.finish_cb ..), ← Dev.strm_setStrm]
  exact Dev.strm_noteOutcome ..

/-! ## Job reset -/

/-- The commands of a list of streams cancelled by a job reset (R396). -/
def Dev.cancelAll (d : Dev) (l : List Nat) : Dev := l.foldl (fun d s => d.finish s .cancelled 0x11 0x1FF 0) d

theorem Dev.cancelAll_hold (d : Dev) (l : List Nat) : (d.cancelAll l).cb.hold = d.cb.hold :=
  foldl_keeps (fun e => e.cb.hold) (fun _ _ => by rw [Dev.finish_cb]; rfl) l d

/-- Cancelling streams' commands keeps every binding and sequence number, and ends those commands alone. -/
theorem Dev.cancelAll_strm (l : List Nat) (d : Dev) (x : Nat) :
    ((d.cancelAll l).strm x).job = (d.strm x).job ∧ ((d.cancelAll l).strm x).last = (d.strm x).last
      ∧ ((d.cancelAll l).strm x).st = (if x ∈ l then .cancelled else (d.strm x).st)
      ∧ ((d.cancelAll l).strm x).status = (if x ∈ l then 0x11 else (d.strm x).status) := by
  induction l generalizing d with
  | nil => simp [Dev.cancelAll]
  | cons s t ih =>
    obtain ⟨o, ho⟩ := d.strm_finish s .cancelled 0x11 0x1FF 0 x
    have h := ih (d.finish s .cancelled 0x11 0x1FF 0)
    rw [ho] at h
    rw [show d.cancelAll (s :: t) = (d.finish s .cancelled 0x11 0x1FF 0).cancelAll t from rfl]
    by_cases hx : x = s
    · subst hx
      simpa [Dev.ended] using h
    · simpa [hx] using h

/-! ### The streams of a job -/

theorem Tbl.look_of_mem {α : Type} {x : Nat} {v : α} : ∀ {t : Tbl α} {b : Nat}, Tbl.risesFrom b t = true → (x, v) ∈ t →
    b ≤ x ∧ Tbl.look t x = some v
  | (k, w) :: t, b, hr, hm => by
    simp only [Tbl.risesFrom, Bool.and_eq_true, decide_eq_true_eq] at hr
    rcases List.mem_cons.mp hm with h | h
    · obtain ⟨rfl, rfl⟩ := Prod.mk.inj h
      exact ⟨hr.1, if_pos rfl⟩
    · obtain ⟨hk, hl⟩ := Tbl.look_of_mem hr.2 h
      exact ⟨by omega, (if_neg (by omega)).trans hl⟩

/-- The streams picked are those whose record says so, where the table lists rising keys. -/
theorem Dev.mem_jobStreams {d : Dev} (h : Tbl.risesFrom 0 d.cb.streams = true) (n : Nat) (f : CmdStream → Bool) (x : Nat) :
    x ∈ d.jobStreams n f ↔ (d.strm x).job = some n ∧ f (d.strm x) = true := by
  simp only [Dev.jobStreams, List.mem_map, List.mem_filter, Bool.and_eq_true, beq_iff_eq, Dev.strm, Tbl.getD]
  constructor
  · rintro ⟨⟨y, v⟩, ⟨hm, hp⟩, rfl⟩
    rw [(Tbl.look_of_mem h hm).2]
    exact hp
  · intro hp
    cases hl : Tbl.look d.cb.streams x with
    | none => rw [hl] at hp; exact absurd hp.1 (by simp)
    | some v => rw [hl] at hp; exact ⟨(x, v), ⟨Tbl.look_mem hl, hp⟩, rfl⟩

theorem Dev.jobStreams_congr {d e : Dev} (h : e.cb = d.cb) (n : Nat) (f : CmdStream → Bool) : e.jobStreams n f = d.jobStreams n f := by
  rw [Dev.jobStreams, Dev.jobStreams, h]

/-! ### The whole reset -/

/-- The device as job reset finds its commands: the job stopped, its channels disabled, its cores reset and outside it, its
sends cleared (R422). -/
def Dev.jobTorn (d : Dev) (n : Nat) : Dev :=
  let d1 := (d.jobStop n 0x11 0x1FF false).disableJob n
  let d2 := (d1.jobCores n).foldl (fun d c => ((d.clearMember c).coreReset c).leaveJob c) d1
  (d2.clearSends (fun j => j == n)).onFab (fun f => { f with lost := f.lost.filter (fun x => x.1 != n) })

theorem Dev.onFab_cb (d : Dev) (f : Fabric → Fabric) : (d.onFab f).cb = d.cb := rfl
theorem Dev.onPw_cb (d : Dev) (f : Pwr → Pwr) : (d.onPw f).cb = d.cb := rfl

theorem Dev.withGate_cb (d : Dev) (a r h : Tbl Nat) : ({ d with armT := a, readyT := r, armHwm := h } : Dev).cb = d.cb := rfl

theorem Dev.jobTorn_cb (d : Dev) (n : Nat) : (d.jobTorn n).cb = d.cb := by
  unfold Dev.jobTorn
  rw [Dev.onFab_cb, Dev.clearSends_cb, foldl_keeps Dev.cb (fun _ _ => by rw [Dev.leaveJob_cb, Dev.coreReset_cb, Dev.clearMember_cb]),
    Dev.disableJob_cb, Dev.jobStop_cb]

/-- A job reset cancels the commands of the job that are not terminal, and leaves the rest of the command block. -/
theorem Dev.rstJob_cb {d : Dev} {n : Nat} (hb : d.bit (aRst 0x10C) 0 = false) (hj : d.pw.jobRst.contains n = false) :
    (d.rstJob n).cb = ((d.jobTorn n).cancelAll (d.jobStreams n (fun r => !r.st.terminal))).cb := by
  rw [← Dev.jobStreams_congr (d.jobTorn_cb n)]
  unfold Dev.rstJob
  rw [if_neg (by rw [hb, hj]; decide)]
  dsimp only
  rw [Dev.putB_cb, Dev.onPw_cb, Dev.withGate_cb, Dev.setReg_cb, Dev.setReg_cb, Dev.setReg_cb]
  rfl

/-- The records and the held commands after a job reset. -/
theorem Dev.rstJob_strm {d : Dev} {n : Nat} (hb : d.bit (aRst 0x10C) 0 = false) (hj : d.pw.jobRst.contains n = false) (x : Nat) :
    ((d.rstJob n).strm x).job = (d.strm x).job ∧ ((d.rstJob n).strm x).last = (d.strm x).last
      ∧ ((d.rstJob n).strm x).st = (if x ∈ d.jobStreams n (fun r => !r.st.terminal) then .cancelled else (d.strm x).st)
      ∧ ((d.rstJob n).strm x).status = (if x ∈ d.jobStreams n (fun r => !r.st.terminal) then 0x11 else (d.strm x).status) := by
  rw [Dev.strm_congr (Dev.rstJob_cb hb hj), ← Dev.strm_congr (d.jobTorn_cb n) x]
  exact Dev.cancelAll_strm _ _ x

theorem Dev.rstJob_hold {d : Dev} {n : Nat} (hb : d.bit (aRst 0x10C) 0 = false) (hj : d.pw.jobRst.contains n = false) :
    (d.rstJob n).cb.hold = d.cb.hold := by
  rw [Dev.rstJob_cb hb hj, Dev.cancelAll_hold, Dev.jobTorn_cb]

/-! ## Stream reset -/

/-- CMD_STREAM_RESET of a stream whose last command is released and of which nothing is held. -/
theorem Dev.streamReset_free {d : Dev} {x : Nat} (hr : (d.strm x).released = true) (hh : ∀ h ∈ d.cb.hold, h.stream ≠ x) :
    d.streamReset x = (d.setStrm x {}).journal x :=
  if_pos ⟨hr, by simpa using hh⟩

/-- CMD_STREAM_RESET of any other stream. -/
theorem Dev.streamReset_busy {d : Dev} {x : Nat} (h : (d.strm x).released = false ∨ ∃ h ∈ d.cb.hold, h.stream = x) :
    d.streamReset x = d.raise (aCmd 0) 5 := by
  refine if_neg fun hc => ?_
  rcases h with h | ⟨e, he, hx⟩
  · exact absurd hc.1 (by simp [h])
  · exact (List.any_eq_false.mp hc.2) e he (by simp [hx])

/-! ## Raising an error bit leaves memory -/

theorem Dev.shad_raise (d : Dev) (p b : Nat) {x : Nat} (hx : x ≠ p + 0x10) : (d.raise p b).shad x = d.shad x := by
  rw [Dev.shad, Dev.shad, Dev.raise_shadow, Dev.reg_raise, if_neg hx]

theorem sameRegsBut_raise (d : Dev) (p b : Nat) : SameRegsBut [p + 0x10] d (d.raise p b) := by
  intro x hx
  rw [List.mem_singleton] at hx
  exact ⟨by rw [Dev.reg_raise, if_neg hx], d.shad_raise p b hx⟩

theorem sameCores_of_cores {d e : Dev} (h : e.cores = d.cores) : SameCores d e := fun x => by rw [Dev.core, Dev.core, h]

/-- The registers that place HBM addresses in storage, and what the memories hold, say what memory reads as. -/
theorem sameMemory_of_stored {d e : Dev} (hmap : ∀ p, p < 1024 → e.isLocal p = d.isLocal p) (hm : e.mem = d.mem) (hc : e.cache = d.cache)
    (hp : e.poison = d.poison) (he : e.errs = d.errs) (hh : e.hostMem = d.hostMem) (hhp : e.hostPoison = d.hostPoison) :
    SameMemory d e := by
  have hkey (a : Nat) : e.hbmKey a = d.hbmKey a := by
    have hlt : bitsN a 40 30 / 2 < 1024 := Nat.div_lt_of_lt_mul (Nat.mod_lt _ (by decide))
    rw [Dev.hbmKey, Dev.hbmKey, hmap _ hlt]
  have hline (k : Nat) : e.line k = d.line k := by rw [Dev.line, Dev.line, hc]
  refine ⟨fun a => ?_, fun a => ?_, he, fun a => by rw [hh], hhp⟩
  · simp only [Dev.peek1, Dev.peekHbm, hkey, hline, hm]
  · simp only [Dev.peekPoison, hkey, hline, hp]

/-- An error bit of the command block changes nothing that memory reads as. -/
theorem sameMemory_raise_cmd (d : Dev) (b : Nat) : SameMemory d (d.raise (aCmd 0) b) := by
  refine sameMemory_of_stored (fun p hp => ?_) (d.raise_mem ..) (d.raise_cache ..) (d.raise_poison ..) (d.raise_errs ..)
    (d.raise_hostMem ..) (d.raise_hostPoison ..)
  have hne : aMap (0x180 + 4 * (p / 32)) ≠ aCmd 0 + 0x10 := by simp only [aMap, aCmd]; omega
  rw [Dev.isLocal, Dev.isLocal, Dev.bit, Dev.bit, Dev.reg_raise, if_neg hne]

/-! ## The statement -/

theorem completes_rstJob {s : State} {n : JobNo} (h : s.serves (aRst 0x108) = true) {P : State → Prop}
    (hp : P (s.onDev fun d => d.rstJob n.val)) : Completes (.rstJob n) s P := by
  refine ⟨_, rfl, ?_⟩
  simpa only [State.onDev, Dev.atReg, h, if_true] using hp

theorem completes_cmdStreamReset {s : State} {x : StreamNo} (h : s.serves (aCmd 0x148) = true) {P : State → Prop}
    (hp : P (s.onDev fun d => d.streamReset x.val)) : Completes (.cmdStreamReset x) s P := by
  refine ⟨_, rfl, ?_⟩
  simpa only [State.onDev, Dev.atReg, h, if_true] using hp

/-- Settles O47: only the ends of the job's commands touch the command block in a job reset, and CMD_STREAM_RESET is one of two. -/
theorem jobResetCancelsCommands : Obligations.JobResetCancelsCommands := by
  intro s
  refine ⟨?jobReset, ?streamReset⟩
  case jobReset =>
    intro n hs hb hj hrise
    refine completes_rstJob hs ?_
    have hstrm (x : Nat) := Dev.rstJob_strm (d := s.toDev) hb hj x
    have hmem (x : Nat) := Dev.mem_jobStreams hrise n.val (fun r => !r.st.terminal) x
    refine ⟨fun x => ⟨(hstrm x).1, (hstrm x).2.1⟩, Dev.rstJob_hold hb hj, fun x hjob hst => ?_, fun x _ hst => ?_⟩
    · obtain ⟨-, -, hst', hstatus⟩ := hstrm x
      have hx := (hmem x).mpr ⟨hjob, by simp [hst]⟩
      exact ⟨hst'.trans (if_pos hx), hstatus.trans (if_pos hx)⟩
    · obtain ⟨-, -, hst', -⟩ := hstrm x
      exact hst'.trans (if_neg fun hx => by simpa [hst] using ((hmem x).mp hx).2)
  case streamReset =>
    intro sid hs
    refine ⟨fun hr hh => completes_cmdStreamReset hs ?_, fun h => completes_cmdStreamReset hs ?_⟩
    · simp only [State.onDev_toDev, Dev.streamReset_free hr hh]
      have hstrm (x : Nat) : ((s.setStrm sid.val {}).journal sid.val).strm x = if x = sid.val then {} else s.strm x := by
        rw [Dev.strm_congr (Dev.journal_cb ..), Dev.strm_setStrm]
      exact ⟨(hstrm _).trans (if_pos rfl), fun x hx => (hstrm x).trans (if_neg hx), sameCores_of_cores (Dev.journal_cores ..)⟩
    · simp only [State.onDev_toDev, Dev.streamReset_busy h]
      exact ⟨s.bit_raise (aCmd 0) 5 (by decide), s.raise_cb .., sameRegsBut_raise _ (aCmd 0) 5, sameCores_of_cores (s.raise_cores _ _),
        sameMemory_raise_cmd _ 5⟩

end Sys2Proof.Machine
end

section
/-! PROOFS. How a command of the trust controller ends (R467): what it reports in TRU_CMD_STAT and what it leaves alone; the
minimum SVN (R442). -/

namespace Sys2Proof.Machine

/-! ## The end of a TRU command -/

/-- TRU_STAT and the registers beside it stand at 0x100–0x110: what no write there touches, showing them leaves. -/
theorem Dev.showTru_keeps {β : Type} {π : Dev → β} (h : ∀ e o w, o ≤ 0x110 → π (e.setReg (aTru o) w) = π e) (d : Dev) :
    π d.showTru = π d := by
  unfold Dev.showTru
  simp only [List.foldl_cons, List.foldl_nil]
  rw [h _ 0x110 _ (by decide), h _ 0x10C _ (by decide), h _ 0x108 _ (by decide), h _ 0x104 _ (by decide), h _ 0x100 _ (by decide)]

/-- What neither a register of the TRU page up to TRU_CMD_STAT nor the AUTH_FAIL error bit touches, the end of a command leaves. -/
theorem Dev.truEnd_keeps {β : Type} {π : Dev → β} (hreg : ∀ e o w, o ≤ 0x120 → π (e.setReg (aTru o) w) = π e)
    (hraise : ∀ e, π (e.raise (aTru 0) 0) = π e) (d : Dev) (op result : Nat) : π (d.truEnd op result) = π d := by
  rw [Dev.truEnd, Dev.showTru_keeps (fun e o w ho => hreg e o w (by omega)), hreg _ _ _ (Nat.le_refl _)]
  split
  · exact hraise d
  · rfl

/-- TRU_CMD_STAT reports the operation and its result. -/
theorem Dev.truEnd_reg_cmdStat (d : Dev) (op result : Nat) :
    (d.truEnd op result).reg (aTru 0x120) = BitVec.ofNat 32 (result * 256 + op) := by
  have hkeeps (e : Dev) := Dev.showTru_keeps (π := fun x => x.reg (aTru 0x120))
    (fun e o w ho => Dev.reg_setReg_ne e (by simp only [aTru]; omega) w) e
  exact (hkeeps _).trans (Dev.reg_setReg_self ..)

theorem Dev.truEnd_reg_of_lt (d : Dev) (op result : Nat) {a : Nat} (ha : aTru 0x120 < a) :
    (d.truEnd op result).reg a = d.reg a := by
  simp only [aTru] at ha
  refine Dev.truEnd_keeps (π := fun x => x.reg a) (fun e o w ho => ?_) (fun e => ?_) d op result
  · exact Dev.reg_setReg_ne e (by simp only [aTru]; omega) w
  · exact (Dev.reg_raise ..).trans (if_neg (by simp only [aTru]; omega))

@[simp] theorem Dev.truEnd_tru (d : Dev) (op result : Nat) : (d.truEnd op result).tru = d.tru :=
  Dev.truEnd_keeps (π := Dev.tru) (fun _ _ _ _ => rfl) (fun e => e.raise_tru ..) d op result

@[simp] theorem Dev.truEnd_cores (d : Dev) (op result : Nat) : (d.truEnd op result).cores = d.cores :=
  Dev.truEnd_keeps (π := Dev.cores) (fun _ _ _ _ => rfl) (fun e => e.raise_cores ..) d op result

theorem Dev.truEnd_isLocal (d : Dev) (op result p : Nat) : (d.truEnd op result).isLocal p = d.isLocal p := by
  rw [Dev.isLocal, Dev.isLocal, Dev.bit, Dev.bit, Dev.truEnd_reg_of_lt _ _ _ (by simp only [aTru, aMap]; omega)]

theorem sameMemory_truEnd (d : Dev) (op result : Nat) : SameMemory d (d.truEnd op result) :=
  sameMemory_of_stored (fun p _ => d.truEnd_isLocal op result p)
    (Dev.truEnd_keeps (π := Dev.mem) (fun _ _ _ _ => rfl) (fun e => e.raise_mem ..) d op result)
    (Dev.truEnd_keeps (π := Dev.cache) (fun _ _ _ _ => rfl) (fun e => e.raise_cache ..) d op result)
    (Dev.truEnd_keeps (π := Dev.poison) (fun _ _ _ _ => rfl) (fun e => e.raise_poison ..) d op result)
    (Dev.truEnd_keeps (π := Dev.errs) (fun _ _ _ _ => rfl) (fun e => e.raise_errs ..) d op result)
    (Dev.truEnd_keeps (π := Dev.hostMem) (fun _ _ _ _ => rfl) (fun e => e.raise_hostMem ..) d op result)
    (Dev.truEnd_keeps (π := Dev.hostPoison) (fun _ _ _ _ => rfl) (fun e => e.raise_hostPoison ..) d op result)

theorem sameCores_truEnd (d : Dev) (op result : Nat) : SameCores d (d.truEnd op result) :=
  sameCores_of_cores (d.truEnd_cores op result)

/-! ## A change of the trust controller alone -/

theorem sameMemory_onTru (d : Dev) (f : Trust → Trust) : SameMemory d (d.onTru f) :=
  sameMemory_of_stored (fun _ _ => rfl) rfl rfl rfl rfl rfl rfl

theorem sameMemory_trans {d e g : Dev} (hde : SameMemory d e) (heg : SameMemory e g) : SameMemory d g := by
  obtain ⟨hpeek, hpoison, herrs, hhost, hhostPoison⟩ := hde
  obtain ⟨hpeek', hpoison', herrs', hhost', hhostPoison'⟩ := heg
  exact ⟨fun a => (hpeek' a).trans (hpeek a), fun a => (hpoison' a).trans (hpoison a), herrs'.trans herrs,
    fun a => (hhost' a).trans (hhost a), hhostPoison'.trans hhostPoison⟩

/-! ## ADVANCE_SVN (R442) -/

/-- The minimum SVN raised to v, as far as the 64 bits of its fuse field go. -/
def Trust.raiseSvn (v : Nat) (t : Trust) : Trust := { t with minSvn := max t.minSvn (min v 64) }

theorem Dev.advanceSvn_refused {d : Dev} {v : Nat} (h : (d.fw.man.map (fun m => m.svn)).getD 0 < v) :
    d.advanceSvn v = d.truEnd 6 0x03 :=
  if_pos h

theorem Dev.advanceSvn_raised {d : Dev} {v : Nat} (h : v ≤ (d.fw.man.map (fun m => m.svn)).getD 0) :
    d.advanceSvn v = (d.onTru (Trust.raiseSvn v)).truEnd 6 0 :=
  if_neg (Nat.not_lt.mpr h)

/-- A command that a register's page must serve completes as its function says where it does. -/
theorem completes_atReg {i : Instr} {s : State} {a : Nat} {f : Dev → Dev} (hi : exec i s = .next (s.onDev fun d => d.atReg a f))
    (hs : s.serves a = true) {P : State → Prop} (hp : P (s.onDev f)) : Completes i s P :=
  ⟨_, hi, by simpa only [State.onDev, Dev.atReg, hs, if_true] using hp⟩

/-! ## The statement -/

/-- Settles O57: the command ends in one of two ways, as v compares with the running manifest's SVN. -/
theorem advanceSvn : Obligations.AdvanceSvn := by
  intro s v hs run
  refine completes_atReg (f := fun d => d.advanceSvn v.toNat) rfl hs ?_
  rcases Nat.lt_or_ge run v.toNat with hlt | hle
  case inl =>
    simp only [State.onDev_toDev, Dev.advanceSvn_refused hlt]
    exact ⟨fun _ => ⟨s.truEnd_reg_cmdStat 6 3, s.truEnd_tru 6 3⟩, fun hle => absurd hlt (Nat.not_lt.mpr hle),
      sameMemory_truEnd _ 6 3, sameCores_truEnd _ 6 3⟩
  case inr =>
    simp only [State.onDev_toDev, Dev.advanceSvn_raised hle]
    have hmem := sameMemory_trans (sameMemory_onTru s.toDev (Trust.raiseSvn v.toNat)) (sameMemory_truEnd _ 6 0)
    exact ⟨fun hlt => absurd hlt (Nat.not_lt.mpr hle), fun _ => ⟨Dev.truEnd_reg_cmdStat _ 6 0, Dev.truEnd_tru _ 6 0⟩,
      hmem, sameCores_truEnd (s.onTru _) 6 0⟩

end Sys2Proof.Machine
end
